-- ==== Sys2Proof/Word.lean ====
section
/-! DEFINITION. The word types of the machine (rules R6, R8, R11): every value is an unsigned bit vector
whose bit 0 is the least significant. -/

namespace Sys2Proof

/-- A data byte: W, every file register, every 8-bit literal (rule R6). -/
abbrev Byte := BitVec 8

/-- An instruction word, 14 bits at one program address (rule R90). -/
abbrev OpWord := BitVec 14

/-- A program address: the 13-bit program counter, a stack entry, a transfer's target (rules R6, R23). -/
abbrev PAddr := BitVec 13

/-- A resolved data-memory address: a number below 2^`DATA_ADDR_BITS` (rules R7, R62). -/
abbrev DAddr := Nat

end Sys2Proof
end

