-- ==== Sys2Proof/Syntax.lean ====
section
/-! DEFINITION. The 37 instructions of spec/opcode_table.json, one constructor each (the table's three rows of TRIS are one
instruction with its operand f, rule R187). Don't-care bits are no operands (rules R97, R108). -/

namespace Sys2Proof

/-- The destination designator d (rule R96): 0 is W, 1 is the file register f. -/
inductive Dest where
  | w
  | f
  deriving DecidableEq, Repr

/-- An instruction with its operands (rules R91 to R96): `f` is the 7-bit file-register designator, `d` the destination,
`b` a bit number, `k` a literal. -/
inductive Instr where
  -- byte-oriented file register operations (40_byte_oriented.md)
  | addwf (f : BitVec 7) (d : Dest)
  | andwf (f : BitVec 7) (d : Dest)
  | clrf (f : BitVec 7)
  | clrw
  | comf (f : BitVec 7) (d : Dest)
  | decf (f : BitVec 7) (d : Dest)
  | decfsz (f : BitVec 7) (d : Dest)
  | incf (f : BitVec 7) (d : Dest)
  | incfsz (f : BitVec 7) (d : Dest)
  | iorwf (f : BitVec 7) (d : Dest)
  | movf (f : BitVec 7) (d : Dest)
  | movwf (f : BitVec 7)
  | nop
  | rlf (f : BitVec 7) (d : Dest)
  | rrf (f : BitVec 7) (d : Dest)
  | subwf (f : BitVec 7) (d : Dest)
  | swapf (f : BitVec 7) (d : Dest)
  | xorwf (f : BitVec 7) (d : Dest)
  -- bit-oriented file register operations (41_bit_oriented.md)
  | bcf (f : BitVec 7) (b : BitVec 3)
  | bsf (f : BitVec 7) (b : BitVec 3)
  | btfsc (f : BitVec 7) (b : BitVec 3)
  | btfss (f : BitVec 7) (b : BitVec 3)
  -- literal and control operations (42_literal.md, 43_control.md)
  | addlw (k : BitVec 8)
  | andlw (k : BitVec 8)
  | call (k : BitVec 11)
  | clrwdt
  | goto (k : BitVec 11)
  | iorlw (k : BitVec 8)
  | movlw (k : BitVec 8)
  | retfie
  | retlw (k : BitVec 8)
  | ret
  | sleep
  | sublw (k : BitVec 8)
  | xorlw (k : BitVec 8)
  -- the two discouraged instructions (44_option_tris.md)
  | option
  | tris (f : BitVec 3)
  deriving DecidableEq, Repr, Inhabited

end Sys2Proof
end

