-- ==== Sys2Proof/Config.lean ====
section
/-! DEFINITION. What a device of the family fixes (the parameters of rule R7, as plain data that the state carries and
no step changes) and the free values: constants with no body, so that nothing can be proved about which value they take. -/

namespace Sys2Proof

/-- The I/O ports: the three whose data-direction registers the spec names, TRIS 5, 6 and 7 (rules R39, R40), and any
further ports of a device, by number from 0. -/
inductive PortId where
  | a | b | c
  | further (n : Nat)
  deriving DecidableEq, Repr

/-- What stands at a resolved data-memory address: the range of the parameter `DATA_MAP` (rules R7, R44, R64, R65). -/
inductive DataKind where
  | general          -- a general-purpose register: plain storage
  | indf             -- the INDF alias (rule R63)
  | tmr0
  | pcl
  | status
  | fsr
  | pclath
  | intcon
  | optionReg
  | tris (p : PortId)
  | port (p : PortId)   -- the addresses of this kind are `PORT_SET`
  | device           -- a peripheral's register: reads are drawn, writes leave the machine (rule R206)
  | unimplemented    -- reads 0x00, writes nothing (rule R79)
  | mirror (of : DAddr)      -- the same location as another address (rule R64's Canon)
  deriving DecidableEq, Repr

/-- `STACK_OVERFLOW_MODE` (rule R35). -/
inductive StackMode where
  | fault      -- a push when full or a pop when empty is refused
  | circular   -- the pointer wraps, as on the family's devices
  deriving DecidableEq, Repr

/-- Where one bit of an address select comes from (`BANK_SELECT` and `IRP_SELECT` of rule R7, log 10). -/
inductive SelectBit where
  | status (n : Nat)             -- bit n of STATUS
  | file (a : DAddr) (n : Nat)   -- bit n of another file register, at resolved address a
  | fixed (b : Bool)
  deriving DecidableEq, Repr

/-- `RESERVED_OPCODE_MODE` (rules R7, R191). -/
inductive ReservedMode where
  | refuse          -- executing a reserved word is refused
  | asInstruction   -- it acts as an instruction of the opcode map, which one is free (log 10)
  deriving DecidableEq, Repr

/-- What a reset does to a register whose reset value is a parameter of `DATA_MAP` (rule R50, log 31): the bits of `fixed`
become those of `value`; to the others the device gives no value. -/
structure ResetByte where
  fixed : Byte
  value : Byte
  deriving DecidableEq, Repr

/-- The same for a port's data latch and TRIS register (rule R50). -/
structure PortReset where
  latch : ResetByte
  tris  : ResetByte
  deriving DecidableEq, Repr

/-- The named parameters of rule R7, and the reset values that rule R50 makes parameters of `DATA_MAP`. `PORT_SET` is the set of addresses that `dataMap` gives the kind `port`. -/
structure Device where
  progWords       : Nat                       -- PROG_WORDS
  stackDepth      : Nat                       -- STACK_DEPTH
  stackMode       : StackMode                 -- STACK_OVERFLOW_MODE
  dataAddrBits    : Nat                       -- DATA_ADDR_BITS
  dataMap         : List (Nat × DataKind)     -- DATA_MAP; an address with no row is a general-purpose register
  furtherPorts    : Nat                       -- of PORT_SET: how many ports beyond the three of TRIS 5, 6 and 7
  bankSelect      : List SelectBit            -- BANK_SELECT: the address bits above `f`, highest first
  irpSelect       : List SelectBit            -- IRP_SELECT: the address bits above FSR, highest first
  statusWriteMask : Byte                      -- STATUS_WRITE_MASK
  pclathMask      : Byte                      -- PCLATH_MASK
  resetVector     : PAddr                     -- RESET_VECTOR
  intVector       : PAddr                     -- INT_VECTOR
  wdtEnabled      : Bool                      -- WDT_ENABLED
  wdtMinPeriod    : Nat                       -- WDT_MIN_PERIOD, in instruction cycles
  reservedMode    : ReservedMode              -- RESERVED_OPCODE_MODE
  optionTarget    : DAddr                     -- OPTION_TARGET
  tris5Target     : DAddr                     -- TRIS_TARGET(5)
  tris6Target     : DAddr                     -- TRIS_TARGET(6)
  tris7Target     : DAddr                     -- TRIS_TARGET(7)
  intconReset     : ResetByte                 -- of DATA_MAP (R50): INTCON, GIE apart
  optionReset     : ResetByte                 -- of DATA_MAP (R50): OPTION_REG
  tmr0Reset       : ResetByte                 -- of DATA_MAP (R50): TMR0
  portResets      : List (PortId × PortReset) -- of DATA_MAP (R50): ports; one with no row has the default
  deriving DecidableEq, Repr

/-- FREE VALUE (log 5, rule R70): the level that the outside holds a port's eight pins at, in the given step, where the
environment's inputs have never said. -/
opaque Config.pinLevel : Nat → PortId → Byte

/-- FREE VALUE (log 5, rule R70): which output pins of a port the outside overdrives in the given step, where the
environment's inputs have never said. -/
opaque Config.pinOverdriven : Nat → PortId → Byte

/-- FREE VALUE (log 6, rule R206): the byte that a peripheral's register at the given address reads as in the given step. -/
opaque Config.deviceByte : Nat → DAddr → Byte

/-- FREE VALUE (log 7, rule R198): whether a requesting interrupt is left for a later boundary in the given step, where
the environment's inputs do not say. -/
opaque Config.interruptHeld : Nat → Bool

/-- FREE VALUE (log 10, rule R191): the instruction as which a reserved word acts on a device whose `RESERVED_OPCODE_MODE`
does not refuse it. -/
opaque Config.reservedAs : OpWord → Instr

end Sys2Proof
end

