-- ==== Sys2Proof/Machine/Device.lean ====
section
/-! DEFINITION. The device that State.reset describes (the defaults of rule R7 and, for the parameters it leaves OPEN, the
values of log 9) and the value each register holds after a power-on reset (rule R50 and, where it gives none, log 3). -/

namespace Sys2Proof.Machine

/-- The core registers at their addresses in bank 0 and the registers of bank 1 (rule R44, decision D6). -/
def coreMap : List (Nat × DataKind) :=
  [ (0x00, .indf), (0x01, .tmr0), (0x02, .pcl), (0x03, .status), (0x04, .fsr),
    (0x05, .port .a), (0x06, .port .b), (0x07, .port .c), (0x0A, .pclath), (0x0B, .intcon),
    (0x81, .optionReg), (0x85, .tris .a), (0x86, .tris .b), (0x87, .tris .c) ]

/-- The mirrors of INDF, PCL, STATUS, FSR, PCLATH and INTCON in the bank that starts at `base` (rule R71). -/
def bankMirrors (base : Nat) : List (Nat × DataKind) :=
  [ (base + 0x00, .mirror 0x00), (base + 0x02, .mirror 0x02), (base + 0x03, .mirror 0x03),
    (base + 0x04, .mirror 0x04), (base + 0x0A, .mirror 0x0A), (base + 0x0B, .mirror 0x0B) ]

/-- The default `DATA_MAP` (rules R44, R71): every address with no row is a general-purpose register (log 9). -/
def defaultMap : List (Nat × DataKind) :=
  coreMap ++ bankMirrors 0x080 ++ bankMirrors 0x100 ++ bankMirrors 0x180

/-- The default `BANK_SELECT`: RP1:RP0, STATUS<6:5> (rules R7, R62). -/
def defaultBankSelect : List SelectBit := [.status 6, .status 5]

/-- The default `IRP_SELECT`: IRP, STATUS<7> (rules R7, R63). -/
def defaultIrpSelect : List SelectBit := [.status 7]

/-! ## The reset values that are parameters (rule R50) -/

/-- `v` where the mask is 1, `old` where it is 0 (rules R31, R50). -/
def mergeMask (mask v old : Byte) : Byte := (v &&& mask) ||| (old &&& ~~~mask)

/-- A register's byte after a reset: the bits with a reset value take it, the others keep what `old` has (log 31). -/
def afterReset (r : ResetByte) (old : Byte) : Byte := mergeMask r.fixed r.value old

/-- No bit has a reset value. -/
def unfixed : ResetByte := { fixed := 0x00#8, value := 0x00#8 }

/-- Every bit is 1 after a reset. -/
def allOnes : ResetByte := { fixed := 0xFF#8, value := 0xFF#8 }

/-- INTCON by default: the enable bits 0, no value for the flag bits (rules R50, R222). -/
def defaultIntconReset : ResetByte := { fixed := 0x78#8, value := 0x00#8 }

/-- A port by default: all pins inputs, no value for the latch (rule R50). -/
def defaultPortReset : PortReset := { latch := unfixed, tris := allOnes }

/-- The row of a port, or the default. -/
def portResetLookup (p : PortId) : List (PortId × PortReset) → PortReset
  | [] => defaultPortReset
  | (q, r) :: rest => if p = q then r else portResetLookup p rest

/-- The reset values of a port of this device. -/
def Device.portReset (d : Device) (p : PortId) : PortReset := portResetLookup p d.portResets

/-- INTCON after a reset: GIE is 0, the other bits are as the device's parameter says (rules R50, R222). -/
def Device.intconAfterReset (d : Device) (old : Byte) : Byte := afterReset d.intconReset old &&& 0x7F#8

/-! ## The device and the values of every reset -/

/-- The device after reset: the defaults of rules R7 and R50; `PROG_WORDS`, `WDT_ENABLED` and `WDT_MIN_PERIOD` are OPEN there (log 9). -/
def defaultDevice : Device where
  progWords := 8192
  stackDepth := 8
  stackMode := .fault
  dataAddrBits := 9
  dataMap := defaultMap
  furtherPorts := 0
  bankSelect := defaultBankSelect
  irpSelect := defaultIrpSelect
  statusWriteMask := 0xE7#8
  pclathMask := 0x1F#8
  resetVector := 0x0000#13
  intVector := 0x0004#13
  wdtEnabled := true
  wdtMinPeriod := 0
  reservedMode := .refuse
  optionTarget := 0x081
  tris5Target := 0x085
  tris6Target := 0x086
  tris7Target := 0x087
  intconReset := defaultIntconReset
  optionReset := allOnes
  tmr0Reset := unfixed
  portResets := []

/-- STATUS after power-on: bank 0, TO = PD = 1 (rule R50); Z, DC, C are not given and stand at 0 (log 3). -/
def powerOnStatus : Byte := 0x18#8

/-- PCLATH after any reset (rule R50). -/
def resetPclath : Byte := 0x00#8

/-- What a bit of W or FSR, or of a register to which the device gives no reset value there, is after power-on (log 3). -/
def powerOnUnspecified : Byte := 0x00#8

end Sys2Proof.Machine
end

