-- ==== Sys2Proof/Machine/State.lean ====
section
/-! DEFINITION. The machine's state as plain data: every register the spec names, the three stores of rule R60, the hidden
state of rule R46, the device's parameters (rule R7), and what the environment does at the coming instruction boundaries. -/

namespace Sys2Proof.Machine

/-- The level change of a pin: the INT pin and the T0CKI pin (rules R193, R203). -/
inductive Edge where
  | rising
  | falling
  deriving DecidableEq, Repr

/-- What the outside does to a port's pins (rule R70): the level it holds each at, and which output pins it overdrives. -/
structure PinDrive where
  level      : Byte
  overdriven : Byte
  deriving DecidableEq, Repr

/-- One I/O port (rules R39, R40): data latch, TRIS register, and the outside's drive; `none` says that the environment's
inputs have not told it, and the pins then read as free values (log 5). -/
structure Port where
  latch : Byte
  tris  : Byte
  pins  : Option PinDrive
  deriving DecidableEq, Repr

/-- The resets that come from outside the core (rule R220). -/
inductive OutsideReset where
  | powerOn
  | external   -- MCLR
  deriving DecidableEq, Repr

/-- What the environment does at one instruction boundary (rules R74, R195, R198, R203, R205, R206, R210, R211 step 0). -/
structure Input where
  reset      : Option OutsideReset := none
  wdtTimeout : Bool := false               -- the watchdog times out, if rule R205 admits it here
  raise      : Byte := 0x00#8           -- INTCON flag bits that the device sets (bits 2:0; rule R195)
  intEdge    : Option Edge := none         -- an edge on the INT pin (rule R193)
  t0cki      : List (Nat × Edge) := []     -- edges on the T0CKI pin since the last boundary, each with the cycle, from
                                           -- 0, of those elapsed that it falls in (rule R203, log 11)
  pinsA      : Option PinDrive := none     -- a new drive of the port's pins
  pinsB      : Option PinDrive := none
  pinsC      : Option PinDrive := none
  pinsFurther : List (Nat × PinDrive) := []   -- new drives of further ports, by port number
  peripheral : Option Bool := none         -- whether some enabled peripheral flag is 1 from here on (rule R194)
  prescale   : Option Byte := none         -- the count the WDT's own clock left in the prescaler while PSA = 1 (log 11)
  idle       : Nat := 0                    -- time passed in sleep, in instruction-cycle lengths (rule R205)
  hold       : Option Bool := none         -- leave a requesting interrupt for a later boundary? (rule R198)
  deriving DecidableEq, Repr

/-- The machine's state. -/
structure State where
  w          : Byte                      -- the working register (R20)
  pc         : PAddr                     -- address of the instruction to execute next (R24)
  status     : Byte                      -- STATUS (R28 to R31)
  fsr        : Byte                      -- FSR (R33)
  pclath     : Byte                      -- PCLATH (R26)
  intcon     : Byte                      -- INTCON (R32, R193)
  tmr0       : Byte                      -- TMR0 (R37)
  optionReg  : Byte                      -- OPTION_REG (R38, R203)
  portA      : Port                      -- PORTA and TRIS 5 (R39, R40)
  portB      : Port                      -- PORTB and TRIS 6
  portC      : Port                      -- PORTC and TRIS 7
  furtherPorts : List (Nat × Port)       -- a device's further ports, by number (PORT_SET of R7, log 29)
  mem        : List Host.Cell            -- general-purpose file registers by resolved address (R21, R62)
  prog       : List (Nat × OpWord)       -- program memory by program address (R61)
  stack      : List (Nat × PAddr)        -- stack entries by slot (R34)
  stackPtr   : Nat                       -- the slot the next push writes (R34: hidden)
  stackLive  : Nat                       -- live entries (R35)
  prescaler  : Byte                      -- running prescaler count (R36)
  t0Inhibit  : Nat                       -- instruction cycles Timer0 still skips after a write to TMR0 (R203)
  wdt        : Nat                       -- WDT counter: instruction cycles since its last clear (R36, R204)
  sleeping   : Bool                      -- in SLEEP mode (R46, R209)
  peripheral : Bool                      -- some enabled peripheral flag is 1 (R194)
  cycles     : Nat                       -- MODEL: instruction cycles so far (the annotation of R12, R241)
  elapsed    : Nat                       -- MODEL: cycles of these that Timer0 has not been given yet (R211 step 0)
  tick       : Nat                       -- MODEL: index of the free values, advanced by every step (log 4)
  inputs     : List Input                -- what the environment does at the coming boundaries, oldest first (log 4)
  device     : Device                    -- the device's parameters (R7)
  deriving DecidableEq, Repr

/-- Why the machine stops with a fault. The hardware has none (rule R190). -/
inductive Fault where
  /-- Raised by a fetch (Machine/Fetch.lean) of an implemented program address to which no program was loaded: the spec
  gives no fill value (N19). Safe: the machine stops where a device would execute whatever its memory holds (log 1). -/
  | fetchUnloaded
  deriving DecidableEq, Repr

/-- Why the model gives a step no meaning: the closed list of rule R192 and the model's own two. -/
inductive Refusal where
  /-- Raised by exec's arm of an instruction whose meaning is not written. Safe. No arm raises it. -/
  | notModelled (mnemonic : String)
  /-- ReservedOpcode (rules R99, R191): the fetched word matches no row of the opcode map. Raised by the fetch. Safe. -/
  | reservedOpcode
  /-- FetchUnimplemented (rule R61): `pc ≥ PROG_WORDS` at fetch. Raised by the fetch. Safe. -/
  | fetchUnimplemented
  /-- StackBounds (rule R35): a push with `STACK_DEPTH` live entries or a pop with none while `STACK_OVERFLOW_MODE` is
  `fault`. Raised by CALL, RETURN, RETLW, RETFIE and interrupt entry. Safe. -/
  | stackBounds
  /-- SkipWithPclDest (rule R140): DECFSZ or INCFSZ with d = 1 whose destination is PCL. Raised by those two. Safe. -/
  | skipWithPclDest
  /-- Raised by the meaning of a TRIS term with f outside 5 to 7, which no word encodes (rule R187, D26). Safe: no fetch
  gives such a term (log 21). -/
  | illFormedTris
  deriving DecidableEq, Repr

/-- A port after a reset (rule R50): latch and TRIS register as the device's parameter says, the outside as it was. -/
def Port.afterReset (r : PortReset) (p : Port) : Port :=
  { p with latch := Machine.afterReset r.latch p.latch, tris := Machine.afterReset r.tris p.tris }

/-- A port after power-on: a bit to which the device gives no value as log 3 says, the outside as given (rule R50). -/
def Port.powerOn (r : PortReset) (pins : Option PinDrive) : Port :=
  Port.afterReset r { latch := powerOnUnspecified, tris := powerOnUnspecified, pins := pins }

/-- A further port that is not listed: as after power-on by the default values, the outside unknown (logs 5, 29). -/
def unlistedPort : Port := Port.powerOn defaultPortReset none

/-- The machine right after a power-on reset (rules R50, R222), no program loaded (log 1). -/
def State.reset : State where
  w := powerOnUnspecified
  pc := defaultDevice.resetVector
  status := powerOnStatus
  fsr := powerOnUnspecified
  pclath := resetPclath
  intcon := Device.intconAfterReset defaultDevice powerOnUnspecified
  tmr0 := afterReset defaultDevice.tmr0Reset powerOnUnspecified
  optionReg := afterReset defaultDevice.optionReset powerOnUnspecified
  portA := Port.powerOn (Device.portReset defaultDevice .a) none
  portB := Port.powerOn (Device.portReset defaultDevice .b) none
  portC := Port.powerOn (Device.portReset defaultDevice .c) none
  furtherPorts := []
  mem := []
  prog := []
  stack := []
  stackPtr := 0
  stackLive := 0
  prescaler := 0
  t0Inhibit := 0
  wdt := 0
  sleeping := false
  peripheral := false
  cycles := 0
  elapsed := 0
  tick := 0
  inputs := []
  device := defaultDevice

end Sys2Proof.Machine
end

