-- ==== Sys2Proof/Machine/Ops.lean ====
section
/-! DEFINITION. The named operations over bits, stores, the program counter and the stack, and the two operations that
enter and leave an interrupt (rules R196, R199). -/

namespace Sys2Proof.Machine

/-! ## Bits -/

/-- Bit `n` of a byte. -/
def bitOf (v : Byte) (n : Nat) : Bool := v.getLsbD n

/-- The byte with bit `n` set (`b` true) or cleared. -/
def setBit (v : Byte) (n : Nat) (b : Bool) : Byte :=
  if b then v ||| (1#8 <<< n) else v &&& ~~~(1#8 <<< n)

/-! ## Stores: lists of (key, value) pairs, keys strictly rising -/

/-- The value stored at a key. -/
def cellLookup {α : Type} (a : Nat) : List (Nat × α) → Option (α)
  | [] => none
  | (b, v) :: rest => if a = b then some v else cellLookup a rest

/-- Store a value at a key, in key order. -/
def cellInsert {α : Type} (a : Nat) (v : α) : List (Nat × α) → List (Nat × α)
  | [] => [(a, v)]
  | (b, x) :: rest =>
    if a < b then (a, v) :: (b, x) :: rest
    else if a = b then (a, v) :: rest
    else (b, x) :: cellInsert a v rest

/-- Remove a key, wherever it stands. -/
def cellErase {α : Type} (a : Nat) : List (Nat × α) → List (Nat × α)
  | [] => []
  | (b, x) :: rest => if a = b then cellErase a rest else (b, x) :: cellErase a rest

/-- Are the keys strictly rising, all of them above `lo` (when given) and below `hi`? -/
def keysRise {α : Type} (lo : Option Nat) (hi : Nat) : List (Nat × α) → Bool
  | [] => true
  | (b, _) :: rest => (match lo with | none => true | some l => decide (l < b)) && decide (b < hi) && keysRise (some b) hi rest

/-- What a byte of data memory that nothing has written reads as (log 2). -/
def unlistedByte : Byte := 0x00#8

/-- What a stack slot that nothing has been pushed into holds (log 3). -/
def unlistedEntry : PAddr := 0x0000#13

/-- Read a key; an unlisted one reads as `dflt`. -/
def cellRead {α : Type} (dflt : α) (m : List (Nat × α)) (a : Nat) : α :=
  (cellLookup a m).getD dflt

/-- Write a key, keeping the canonical form: writing what an unlisted key reads as removes the entry. -/
def cellWrite {α : Type} [DecidableEq α] (dflt : α) (m : List (Nat × α)) (a : Nat) (v : α) : List (Nat × α) :=
  if v = dflt then cellErase a m else cellInsert a v m

/-- The canonical form: keys strictly rising and below `hi`, no entry equal to what an unlisted key reads as. -/
def cellsCanonical {α : Type} [DecidableEq α] (dflt : α) (hi : Nat) (m : List (Nat × α)) : Bool :=
  keysRise none hi m && m.all (fun c => c.2 ≠ dflt)

/-- One byte of general-purpose data memory (rule R62). -/
def Memory.read (m : List Host.Cell) (a : DAddr) : Byte := cellRead unlistedByte m a

/-- Write one byte of general-purpose data memory (rule R62). -/
def Memory.write (m : List Host.Cell) (a : DAddr) (v : Byte) : List Host.Cell := cellWrite unlistedByte m a v

/-- Data memory is in its canonical form over an address space of `bits` bits. -/
def Memory.wf (bits : Nat) (m : List Host.Cell) : Bool := cellsCanonical unlistedByte (2 ^ bits) m

/-! ## Ports -/

def State.port (s : State) : PortId → Port
  | .a => s.portA
  | .b => s.portB
  | .c => s.portC
  | .further n => cellRead unlistedPort s.furtherPorts n

def State.setPort (s : State) (p : PortId) (x : Port) : State :=
  match p with
  | .a => { s with portA := x }
  | .b => { s with portB := x }
  | .c => { s with portC := x }
  | .further n => { s with furtherPorts := cellWrite unlistedPort s.furtherPorts n x }

/-- Write a port's data latch (rule R70). -/
def State.setLatch (s : State) (p : PortId) (v : Byte) : State := s.setPort p { s.port p with latch := v }

/-- Write a TRIS register (rule R39). -/
def State.setTris (s : State) (p : PortId) (v : Byte) : State := s.setPort p { s.port p with tris := v }

/-- The pins of a port, `Pins(a)` of rule R70: an output pin (TRIS bit 0) that the outside does not overdrive has its
latch bit, every other pin the outside's level; where the outside is unknown both are free values (log 5). -/
def State.pins (s : State) (p : PortId) : Byte :=
  let port := s.port p
  let drive : PinDrive :=
    match port.pins with
    | some d => d
    | none => { level := Config.pinLevel s.tick p, overdriven := Config.pinOverdriven s.tick p }
  mergeMask (port.tris ||| drive.overdriven) drive.level port.latch

/-! ## Time and the program counter -/

/-- `cycles <- n` (rules R12, R241): the clocks of the environment see `n` more instruction cycles. -/
def State.clock (s : State) (n : Nat) : State :=
  { s with cycles := s.cycles + n, elapsed := s.elapsed + n, wdt := if s.device.wdtEnabled then s.wdt + n else s.wdt }

/-- Sequential: `pc <- (pc + 1)[12:0]`, one cycle (rule R25). -/
def State.next (s : State) : State := State.clock { s with pc := s.pc + 1#13 } 1

/-- A skip taken: `pc <- (pc + 2)[12:0]`, two cycles (rules R25, R140). -/
def State.skip (s : State) : State := State.clock { s with pc := s.pc + 2#13 } 2

/-- A transfer to `target`, two cycles (rules R25, R170). -/
def State.jump (s : State) (target : PAddr) : State := State.clock { s with pc := target } 2

/-- `PCLATH[4:3] : k11`, the target of CALL and GOTO (rules R25, R171, R172). -/
def pageTarget (s : State) (k : BitVec 11) : PAddr := s.pclath.extractLsb' 3 2 ++ k

/-- `PCLATH[4:0] : v8`, where a write of `v` to PCL goes (rules R25, R27). -/
def pclTarget (s : State) (v : Byte) : PAddr := s.pclath.extractLsb' 0 5 ++ v

/-- What a read of PCL returns: `(pc + 1)[7:0]` (rule R24). -/
def pclValue (s : State) : Byte := (s.pc + 1#13).extractLsb' 0 8

/-! ## The hardware stack (rules R34, R35) -/

/-- Write the slot at the pointer and move the pointer on, wrapping at `STACK_DEPTH`. -/
def pushSlot (s : State) (v : PAddr) : State :=
  { s with
    stack := cellWrite unlistedEntry s.stack s.stackPtr v
    stackPtr := (s.stackPtr + 1) % s.device.stackDepth
    stackLive := min (s.stackLive + 1) s.device.stackDepth }

/-- The slot below the pointer: the top of the stack. -/
def topSlot (s : State) : Nat := (s.stackPtr + s.device.stackDepth - 1) % s.device.stackDepth

/-- TOS, the top of the stack (rule R34). -/
def tos (s : State) : PAddr := cellRead unlistedEntry s.stack (topSlot s)

/-- Remove the top entry. -/
def popSlot (s : State) : State := { s with stackPtr := topSlot s, stackLive := s.stackLive - 1 }

/-- `Push(v)`: none is StackBounds (rule R35). -/
def push (s : State) (v : PAddr) : Option State :=
  if s.device.stackMode = .fault ∧ s.device.stackDepth ≤ s.stackLive then none else some (pushSlot s v)

/-- `Pop()`: the value and the state after it; none is StackBounds (rule R35). -/
def pop (s : State) : Option (PAddr × State) :=
  if s.device.stackMode = .fault ∧ s.stackLive = 0 then none else some (tos s, popSlot s)

/-! ## Interrupt entry and return (rules R196, R199) -/

/-- Bit numbers of INTCON (rule R193). -/
def bitGIE : Nat := 7
def bitPEIE : Nat := 6
def bitT0IE : Nat := 5
def bitINTE : Nat := 4
def bitRBIE : Nat := 3
def bitT0IF : Nat := 2
def bitINTF : Nat := 1
def bitRBIF : Nat := 0

/-- Interrupt entry: push the pc, clear GIE, go to `INT_VECTOR`, two cycles; nothing else is saved (rule R196). -/
def enterInterrupt (s : State) : Host.Outcome State Fault Refusal :=
  match push s s.pc with
  | none => .refused .stackBounds
  | some t => .next (State.jump { t with intcon := setBit t.intcon bitGIE false } t.device.intVector)

/-- Return through the stack, two cycles: what RETURN, RETLW and RETFIE share (rules R170, R175). -/
def returnToTos (s : State) : Host.Outcome State Fault Refusal :=
  match pop s with
  | none => .refused .stackBounds
  | some (target, t) => .next (t.jump target)

/-- Return from interrupt: `TOS → PC, 1 → GIE`; nothing else is restored (rules R173, R199). -/
def returnFromInterrupt (s : State) : Host.Outcome State Fault Refusal :=
  returnToTos { s with intcon := setBit s.intcon bitGIE true }

end Sys2Proof.Machine
end

