-- ==== Sys2Proof/Machine/Flags.lean ====
section
/-! DEFINITION. The STATUS bits (rules R28, R30), the additions and subtractions that compute them (rule R121), and the
updates that write them after the data write (rule R29). -/

namespace Sys2Proof.Machine

/-- Bit numbers of STATUS (rule R30). -/
def bitC : Nat := 0
def bitDC : Nat := 1
def bitZ : Nat := 2
def bitPD : Nat := 3
def bitTO : Nat := 4

def State.flagC (s : State) : Bool := bitOf s.status bitC
def State.flagDC (s : State) : Bool := bitOf s.status bitDC
def State.flagZ (s : State) : Bool := bitOf s.status bitZ
def State.flagPD (s : State) : Bool := bitOf s.status bitPD
def State.flagTO (s : State) : Bool := bitOf s.status bitTO
def State.gie (s : State) : Bool := bitOf s.intcon bitGIE

/-- Write one STATUS bit as a flag: not subject to `STATUS_WRITE_MASK` (rules R29, R176). -/
def State.setStatusBit (s : State) (n : Nat) (b : Bool) : State := { s with status := setBit s.status n b }

/-- Write Z from an 8-bit result (rule R28). -/
def State.setZ (s : State) (r : Byte) : State := s.setStatusBit bitZ (r == 0x00#8)

/-- Write C (rules R135, R136). -/
def State.setC (s : State) (c : Bool) : State := s.setStatusBit bitC c

/-- Write TO and PD (rules R176, R177, R205, R220). -/
def State.setToPd (s : State) (tOut pDown : Bool) : State := (s.setStatusBit bitTO tOut).setStatusBit bitPD pDown

/-- The result of an addition or subtraction with its flags (rule R121). -/
structure Sum where
  value : Byte
  c     : Bool
  dc    : Bool
  deriving DecidableEq, Repr

/-- `a + b + cin` with the carries out of bit 7 and bit 3 (rule R121). -/
def sumWithCarry (a b : Byte) (cin : BitVec 1) : Sum :=
  let s : BitVec 9 := a.zeroExtend 9 + b.zeroExtend 9 + cin.zeroExtend 9
  let low : BitVec 8 := (a &&& 0x0F#8) + (b &&& 0x0F#8) + cin.zeroExtend 8
  { value := s.extractLsb' 0 8, c := s.getLsbD 8, dc := low.getLsbD 4 }

/-- ADD(a, b) of rule R121. -/
def addBytes (a b : Byte) : Sum := sumWithCarry a b 0#1

/-- SUB(a, b) of rule R121: a minus b by the 2's complement method; C = 1 is no borrow. -/
def subBytes (a b : Byte) : Sum := sumWithCarry a (~~~b) 1#1

/-- Write C, DC and Z from a sum (rule R121). -/
def State.setSumFlags (s : State) (r : Sum) : State :=
  ((s.setC r.c).setStatusBit bitDC r.dc).setZ r.value

end Sys2Proof.Machine
end

