-- ==== Sys2Proof/Machine/Operands.lean ====
section
/-! DEFINITION. The operand forms: how `f` becomes a location (rules R62, R63), what a read and a write of each kind of
location do (rules R64, R65), and the destination forms d = 0 and d = 1 (rules R25, R27, R120, R140). -/

namespace Sys2Proof.Machine

/-- `DATA_MAP`: an address with no row is a general-purpose register. -/
def mapLookup (a : Nat) : List (Nat × DataKind) → DataKind
  | [] => .general
  | (b, k) :: rest => if a = b then k else mapLookup a rest

/-- What stands at a resolved address (rule R44). -/
def Device.kindAt (d : Device) (a : DAddr) : DataKind := mapLookup a d.dataMap

/-- Canon(a): the address a mirror stands for, any other address itself (rule R64). -/
def Device.canon (d : Device) (a : DAddr) : DAddr :=
  match Device.kindAt d a with
  | .mirror b => b
  | _ => a

/-- The byte read at a location (the cases of rule R64; rules R24, R70, R79, R206). -/
def readAt (s : State) (a : DAddr) : Byte :=
  match Device.kindAt s.device a with
  | .general => Memory.read s.mem a
  | .mirror _ => Memory.read s.mem a
  | .indf => 0x00#8
  | .tmr0 => s.tmr0
  | .pcl => pclValue s
  | .status => s.status
  | .fsr => s.fsr
  | .pclath => s.pclath
  | .intcon => s.intcon
  | .optionReg => s.optionReg
  | .tris p => (s.port p).tris
  | .port p => s.pins p
  | .device => Config.deviceByte s.tick a
  | .unimplemented => 0x00#8

/-- The value of one bit of an address select (rule R7). -/
def selectBit (s : State) : SelectBit → Bool
  | .status n => bitOf s.status n
  | .file a n => bitOf (readAt s (Device.canon s.device a)) n
  | .fixed b => b

/-- The number that the bits of an address select make, the highest first. -/
def selectValue (s : State) (bits : List SelectBit) : Nat := bits.foldl (fun v b => 2 * v + (selectBit s b).toNat) 0

/-- DirectAddr(f): the bits of `BANK_SELECT` above `f`, by default STATUS[6:5] : f (rule R62). -/
def directAddr (s : State) (f : BitVec 7) : DAddr :=
  (128 * selectValue s s.device.bankSelect + f.toNat) % 2 ^ s.device.dataAddrBits

/-- IndirectAddr(): the bits of `IRP_SELECT` above FSR, by default STATUS[7] : FSR (rule R63). -/
def indirectAddr (s : State) : DAddr :=
  (256 * selectValue s s.device.irpSelect + s.fsr.toNat) % 2 ^ s.device.dataAddrBits

/-- The location `f` names: the direct one, or through INDF the one FSR names; none when INDF names INDF (rules R62 to
R65). -/
def fileTarget (s : State) (f : BitVec 7) : Option DAddr :=
  let a := Device.canon s.device (directAddr s f)
  if Device.kindAt s.device a == .indf then
    let b := Device.canon s.device (indirectAddr s)
    if Device.kindAt s.device b == .indf then none else some b
  else some a

/-- Is the prescaler assigned to the WDT? PSA, OPTION_REG bit 3 (rule R203). -/
def prescalerOnWdt (s : State) : Bool := bitOf s.optionReg 3

/-- A data write to TMR0: the prescaler count is cleared if assigned to Timer0 (rule R37), and Timer0 does not count in
this instruction cycle and the two that follow (rule R203, log 11). -/
def writeTmr0 (s : State) (v : Byte) : State :=
  { s with
    tmr0 := v
    prescaler := if prescalerOnWdt s then s.prescaler else 0
    t0Inhibit := 3 }

/-- The data write at a location (the cases of rule R65); a write to PCL changes no location, `finishFile` gives it its
jump. -/
def writeAt (s : State) (a : DAddr) (v : Byte) : State :=
  match Device.kindAt s.device a with
  | .general => { s with mem := Memory.write s.mem a v }
  | .mirror _ => { s with mem := Memory.write s.mem a v }
  | .indf => s
  | .tmr0 => writeTmr0 s v
  | .pcl => s
  | .status => { s with status := mergeMask s.device.statusWriteMask v s.status }
  | .fsr => { s with fsr := v }
  | .pclath => { s with pclath := v &&& s.device.pclathMask }
  | .intcon => { s with intcon := v }
  | .optionReg => { s with optionReg := v }
  | .tris p => s.setTris p v
  | .port p => s.setLatch p v
  | .device => s
  | .unimplemented => s

/-- RegRead(f) (rule R64). -/
def regRead (s : State) (f : BitVec 7) : Byte :=
  match fileTarget s f with
  | none => 0x00#8
  | some a => readAt s a

/-- RegWrite(f, v) but for the jump of a PCL write (rule R65). -/
def regWrite (s : State) (f : BitVec 7) (v : Byte) : State :=
  match fileTarget s f with
  | none => s
  | some a => writeAt s a v

/-- Does `f` name PCL? (rule R27) -/
def namesPcl (s : State) (f : BitVec 7) : Bool :=
  match fileTarget s f with
  | none => false
  | some a => Device.kindAt s.device a == .pcl

/-- Write `v` to the file register `f` and go on: sequentially, or by the jump of a PCL write (rules R25, R27, R65). -/
def finishFile (s : State) (f : BitVec 7) (v : Byte) : State :=
  if namesPcl s f then s.jump (pclTarget s v) else (regWrite s f v).next

/-- Write the result to the destination `d` and go on (rule R120). -/
def finishDest (s : State) (f : BitVec 7) (d : Dest) (v : Byte) : State :=
  match d with
  | .w => State.next { s with w := v }
  | .f => finishFile s f v

/-- Go on by a skip or sequentially (rule R140). -/
def skipIf (s : State) (b : Bool) : State := if b then s.skip else s.next

/-- The skip forms with a destination, DECFSZ and INCFSZ: write the result, skip if it is 0; with PCL as the destination
the spec gives no meaning (rules R128, R130, R140). -/
def finishSkip (s : State) (f : BitVec 7) (d : Dest) (v : Byte) : Host.Outcome State Fault Refusal :=
  match d with
  | .w => .next (skipIf { s with w := v } (v == 0x00#8))
  | .f =>
    if namesPcl s f then .refused .skipWithPclDest
    else .next (skipIf (regWrite s f v) (v == 0x00#8))

end Sys2Proof.Machine
end

