-- ==== Sys2Proof/Machine/BitOps.lean ====
section
/-! DEFINITION. The bit-oriented file register operations (41_bit_oriented.md): BCF and BSF read and write the whole byte,
BTFSC and BTFSS only read; none affects a flag (rule R150). -/

namespace Sys2Proof.Machine

/-- R151: `0 → f<b>`. -/
def execBcf (f : BitVec 7) (b : BitVec 3) (s : State) : Host.Outcome State Fault Refusal :=
  .next (finishFile s f (setBit (regRead s f) b.toNat false))

/-- R152: `1 → f<b>`. -/
def execBsf (f : BitVec 7) (b : BitVec 3) (s : State) : Host.Outcome State Fault Refusal :=
  .next (finishFile s f (setBit (regRead s f) b.toNat true))

/-- R153: skip if `(f<b>) = 0`. -/
def execBtfsc (f : BitVec 7) (b : BitVec 3) (s : State) : Host.Outcome State Fault Refusal :=
  .next (skipIf s (!bitOf (regRead s f) b.toNat))

/-- R154: skip if `(f<b>) = 1`. -/
def execBtfss (f : BitVec 7) (b : BitVec 3) (s : State) : Host.Outcome State Fault Refusal :=
  .next (skipIf s (bitOf (regRead s f) b.toNat))

end Sys2Proof.Machine
end

