-- ==== Sys2Proof/Machine/ByteOps.lean ====
section
/-! DEFINITION. The byte-oriented file register operations (40_byte_oriented.md): read `f`, compute, write the destination,
then write the flags the instruction lists (rules R29, R120). -/

namespace Sys2Proof.Machine

/-- R122: `(W) + (f) → destination`; C, DC, Z. -/
def execAddwf (f : BitVec 7) (d : Dest) (s : State) : Host.Outcome State Fault Refusal :=
  let r := addBytes (regRead s f) s.w
  .next ((finishDest s f d r.value).setSumFlags r)

/-- R123: `(W) .AND. (f) → destination`; Z. -/
def execAndwf (f : BitVec 7) (d : Dest) (s : State) : Host.Outcome State Fault Refusal :=
  let r := regRead s f &&& s.w
  .next ((finishDest s f d r).setZ r)

/-- R124: `00h → f`; Z is set. -/
def execClrf (f : BitVec 7) (s : State) : Host.Outcome State Fault Refusal :=
  .next ((finishFile s f 0x00#8).setZ 0x00#8)

/-- R125: `00h → W`; Z is set. -/
def execClrw (s : State) : Host.Outcome State Fault Refusal :=
  .next ((State.next { s with w := 0x00#8 }).setZ 0x00#8)

/-- R126: the one's complement of `(f)` → destination; Z. -/
def execComf (f : BitVec 7) (d : Dest) (s : State) : Host.Outcome State Fault Refusal :=
  let r := ~~~(regRead s f)
  .next ((finishDest s f d r).setZ r)

/-- R127: `(f) - 1 → destination`; Z. -/
def execDecf (f : BitVec 7) (d : Dest) (s : State) : Host.Outcome State Fault Refusal :=
  let r := regRead s f - 1#8
  .next ((finishDest s f d r).setZ r)

/-- R128: `(f) - 1 → destination`, skip if the result is 0; no flag. -/
def execDecfsz (f : BitVec 7) (d : Dest) (s : State) : Host.Outcome State Fault Refusal :=
  finishSkip s f d (regRead s f - 1#8)

/-- R129: `(f) + 1 → destination`; Z. -/
def execIncf (f : BitVec 7) (d : Dest) (s : State) : Host.Outcome State Fault Refusal :=
  let r := regRead s f + 1#8
  .next ((finishDest s f d r).setZ r)

/-- R130: `(f) + 1 → destination`, skip if the result is 0; no flag. -/
def execIncfsz (f : BitVec 7) (d : Dest) (s : State) : Host.Outcome State Fault Refusal :=
  finishSkip s f d (regRead s f + 1#8)

/-- R131: `(W) .OR. (f) → destination`; Z. -/
def execIorwf (f : BitVec 7) (d : Dest) (s : State) : Host.Outcome State Fault Refusal :=
  let r := regRead s f ||| s.w
  .next ((finishDest s f d r).setZ r)

/-- R132: `(f) → destination`; Z. -/
def execMovf (f : BitVec 7) (d : Dest) (s : State) : Host.Outcome State Fault Refusal :=
  let r := regRead s f
  .next ((finishDest s f d r).setZ r)

/-- R133: `(W) → f`; no flag. -/
def execMovwf (f : BitVec 7) (s : State) : Host.Outcome State Fault Refusal :=
  .next (finishFile s f s.w)

/-- R134: nothing but the pc changes. -/
def execNop (s : State) : Host.Outcome State Fault Refusal :=
  .next s.next

/-- R135: rotate left through C: the old C enters bit 0, bit 7 leaves into C. -/
def execRlf (f : BitVec 7) (d : Dest) (s : State) : Host.Outcome State Fault Refusal :=
  let a := regRead s f
  let r : Byte := a.extractLsb' 0 7 ++ BitVec.ofBool s.flagC
  .next ((finishDest s f d r).setC (bitOf a 7))

/-- R136: rotate right through C: the old C enters bit 7, bit 0 leaves into C. -/
def execRrf (f : BitVec 7) (d : Dest) (s : State) : Host.Outcome State Fault Refusal :=
  let a := regRead s f
  let r : Byte := BitVec.ofBool s.flagC ++ a.extractLsb' 1 7
  .next ((finishDest s f d r).setC (bitOf a 0))

/-- R137: `(f) - (W) → destination`; C, DC, Z. -/
def execSubwf (f : BitVec 7) (d : Dest) (s : State) : Host.Outcome State Fault Refusal :=
  let r := subBytes (regRead s f) s.w
  .next ((finishDest s f d r.value).setSumFlags r)

/-- R138: `(f<3:0>) → destination<7:4>, (f<7:4>) → destination<3:0>`; no flag. -/
def execSwapf (f : BitVec 7) (d : Dest) (s : State) : Host.Outcome State Fault Refusal :=
  let a := regRead s f
  .next (finishDest s f d (a.extractLsb' 0 4 ++ a.extractLsb' 4 4))

/-- R139: `(W) .XOR. (f) → destination`; Z. -/
def execXorwf (f : BitVec 7) (d : Dest) (s : State) : Host.Outcome State Fault Refusal :=
  let r := regRead s f ^^^ s.w
  .next ((finishDest s f d r).setZ r)

end Sys2Proof.Machine
end

