-- ==== Sys2Proof/Machine/ControlOps.lean ====
section
/-! DEFINITION. The control operations (43_control.md): transfers through PCLATH and the stack, CLRWDT and SLEEP. -/

namespace Sys2Proof.Machine

/-- Clear the WDT counter and its prescaler count: the shared count is the WDT's only while it is assigned to the WDT
(rules R36, R176, R177, U24, log 12). -/
def clearWdt (s : State) : State :=
  { s with wdt := 0, prescaler := if prescalerOnWdt s then 0 else s.prescaler }

/-- R171: `(PC) + 1 → TOS, k → PC<10:0>, PCLATH<4:3> → PC<12:11>`. -/
def execCall (k : BitVec 11) (s : State) : Host.Outcome State Fault Refusal :=
  match push s (s.pc + 1#13) with
  | none => .refused .stackBounds
  | some t => .next (t.jump (pageTarget s k))

/-- R172: `k → PC<10:0>, PCLATH<4:3> → PC<12:11>`. -/
def execGoto (k : BitVec 11) (s : State) : Host.Outcome State Fault Refusal :=
  .next (s.jump (pageTarget s k))

/-- R173: `TOS → PC, 1 → GIE`. -/
def execRetfie (s : State) : Host.Outcome State Fault Refusal :=
  returnFromInterrupt s

/-- R174: `k → W; TOS → PC`. -/
def execRetlw (k : BitVec 8) (s : State) : Host.Outcome State Fault Refusal :=
  returnToTos { s with w := k }

/-- R175: `TOS → PC`. -/
def execRet (s : State) : Host.Outcome State Fault Refusal :=
  returnToTos s

/-- R176: `00h → WDT, 0 → WDT prescaler count, 1 → TO, 1 → PD`. -/
def execClrwdt (s : State) : Host.Outcome State Fault Refusal :=
  .next ((clearWdt s.next).setToPd true true)

/-- R177: `00h → WDT, 0 → WDT prescaler count, 1 → TO, 0 → PD`; the core sleeps. -/
def execSleep (s : State) : Host.Outcome State Fault Refusal :=
  .next { (clearWdt s.next).setToPd true false with sleeping := true }

end Sys2Proof.Machine
end

