-- ==== Sys2Proof/Machine/LiteralOps.lean ====
section
/-! DEFINITION. The literal operations on W (42_literal.md, rule R160): no file register is read or written, one cycle. -/

namespace Sys2Proof.Machine

/-- Load W and go on sequentially (rule R160). -/
def State.loadW (s : State) (v : Byte) : State := State.next { s with w := v }

/-- R161: `(W) + k → W`; C, DC, Z. -/
def execAddlw (k : BitVec 8) (s : State) : Host.Outcome State Fault Refusal :=
  let r := addBytes s.w k
  .next ((s.loadW r.value).setSumFlags r)

/-- R162: `(W) .AND. k → W`; Z. -/
def execAndlw (k : BitVec 8) (s : State) : Host.Outcome State Fault Refusal :=
  let r := s.w &&& k
  .next ((s.loadW r).setZ r)

/-- R163: `(W) .OR. k → W`; Z. -/
def execIorlw (k : BitVec 8) (s : State) : Host.Outcome State Fault Refusal :=
  let r := s.w ||| k
  .next ((s.loadW r).setZ r)

/-- R164: `k → W`; no flag. -/
def execMovlw (k : BitVec 8) (s : State) : Host.Outcome State Fault Refusal :=
  .next (s.loadW k)

/-- R165: `k - (W) → W`; C, DC, Z. -/
def execSublw (k : BitVec 8) (s : State) : Host.Outcome State Fault Refusal :=
  let r := subBytes k s.w
  .next ((s.loadW r.value).setSumFlags r)

/-- R166: `(W) .XOR. k → W`; Z. -/
def execXorlw (k : BitVec 8) (s : State) : Host.Outcome State Fault Refusal :=
  let r := s.w ^^^ k
  .next ((s.loadW r).setZ r)

end Sys2Proof.Machine
end

