-- ==== Sys2Proof/Machine/OptionTris.lean ====
section
/-! DEFINITION. OPTION and TRIS (44_option_tris.md): W to the register the instruction names, whatever the bank bits are
(rule R185). -/

namespace Sys2Proof.Machine

/-- TRIS_TARGET(f) for f = 5, 6, 7 (rules R7, R187). -/
def trisTarget (d : Device) (f : BitVec 3) : Option DAddr :=
  if f = 5#3 then some d.tris5Target
  else if f = 6#3 then some d.tris6Target
  else if f = 7#3 then some d.tris7Target
  else none

/-- R186: `(W) → OPTION`. -/
def execOption (s : State) : Host.Outcome State Fault Refusal :=
  .next (writeAt s s.device.optionTarget s.w).next

/-- R187: `(W) → TRIS register f`; a term with f outside 5 to 7 is no instruction. -/
def execTris (f : BitVec 3) (s : State) : Host.Outcome State Fault Refusal :=
  match trisTarget s.device f with
  | none => .refused .illFormedTris
  | some a => .next (writeAt s a s.w).next

end Sys2Proof.Machine
end

