-- ==== Sys2Proof/Machine/Environment.lean ====
section
/-! DEFINITION. What happens at an instruction boundary before the fetch (rule R211, steps 0 to 3): Timer0 and the device's
flag bits, the watchdog, resets, wake-up, and whether an interrupt is taken. -/

namespace Sys2Proof.Machine

/-! ## Timer0 and its prescaler (rule R203) -/

/-- The prescaler's ratio for Timer0: 2^(n+1) for PS2:PS0 = n. -/
def timer0Ratio (s : State) : Nat := 2 ^ ((s.optionReg.extractLsb' 0 3).toNat + 1)

/-- TMR0 counts up by `n`; a roll-over from 0xFF to 0x00 sets T0IF. -/
def countTmr0 (s : State) (n : Nat) : State :=
  let sum := s.tmr0.toNat + n
  { s with
    tmr0 := BitVec.ofNat 8 sum
    intcon := if 256 ≤ sum then setBit s.intcon bitT0IF true else s.intcon }

/-- Timer0 is given `n` clocks: through the prescaler if that is assigned to it, directly otherwise. -/
def clockTimer0 (s : State) (n : Nat) : State :=
  if prescalerOnWdt s then countTmr0 s n
  else
    let total := s.prescaler.toNat + n
    countTmr0 { s with prescaler := BitVec.ofNat 8 total } (total / timer0Ratio s - s.prescaler.toNat / timer0Ratio s)

/-- Does Timer0 count external edges instead of instruction cycles? T0CS, OPTION_REG bit 5. -/
def timer0External (s : State) : Bool := bitOf s.optionReg 5

/-- Timer0 is given the instruction cycles elapsed since the last boundary, less those inhibited by a write to TMR0. -/
def runTimer0 (s : State) : State :=
  let skipped := min s.elapsed s.t0Inhibit
  let t := { s with elapsed := 0, t0Inhibit := s.t0Inhibit - skipped }
  if timer0External s then t else clockTimer0 t (s.elapsed - skipped)

/-- Is this the edge of the T0CKI pin that T0SE, OPTION_REG bit 4, selects? 0 is low-to-high. -/
def t0ckiSelected (s : State) (e : Edge) : Bool := bitOf s.optionReg 4 == (e == .falling)

/-- Does an edge in cycle `k` of the cycles elapsed fall outside those that a write to TMR0 inhibits? In sleep no cycle
passes, and it does once the inhibit has run out (rules R203, R234, log 11). -/
def t0ckiUninhibited (s : State) (k : Nat) : Bool := decide (s.t0Inhibit ≤ min k (s.elapsed - 1))

/-- The clocks that the T0CKI pin's edges since the last boundary give Timer0: one for each of the selected direction
outside the inhibited cycles, if it counts external edges. -/
def t0ckiClocks (s : State) (edges : List (Nat × Edge)) : Nat :=
  if timer0External s then (edges.filter (fun e => t0ckiSelected s e.2 && t0ckiUninhibited s e.1)).length else 0

/-! ## Flag bits that the device sets (rules R193 to R195) -/

/-- Is this the edge of the INT pin that INTEDG, OPTION_REG bit 6, selects? 1 is the rising edge. -/
def intEdgeSelected (s : State) (e : Edge) : Bool := bitOf s.optionReg 6 == (e == .rising)

/-- Does a new drive change an input pin among port B<7:4>? Only a change from one known level to another shows. -/
def portBChange (s : State) (inp : Input) : Bool :=
  match s.portB.pins, inp.pinsB with
  | some old, some new => (old.level ^^^ new.level) &&& s.portB.tris &&& 0xF0#8 != 0#8
  | _, _ => false

/-- The INTCON flag bits that the device sets at this boundary (T0IF of Timer0's own roll-over apart). -/
def raisedFlags (s : State) (inp : Input) : Byte :=
  (inp.raise &&& 0x07#8)
  ||| (match inp.intEdge with
      | some e => if intEdgeSelected s e then 0x02#8 else 0x00#8
      | none => 0x00#8)
  ||| (if portBChange s inp then 0x01#8 else 0x00#8)

/-- The port with the new drive, if the input gives one. -/
def Port.driven (p : Port) (d : Option PinDrive) : Port :=
  match d with
  | some x => { p with pins := some x }
  | none => p

/-- The further ports with their new drives; a number the device has no port for is passed over. -/
def driveFurther (count : Nat) (ports : List (Nat × Port)) : List (Nat × PinDrive) → List (Nat × Port)
  | [] => ports
  | (n, x) :: rest =>
    driveFurther count
      (if n < count then cellWrite unlistedPort ports n { cellRead unlistedPort ports n with pins := some x } else ports) rest

/-! ## Step 0: the environment's events are applied -/

/-- What the environment does at the coming boundary: the oldest input, or nothing. -/
def State.input (s : State) : Input := s.inputs.headD {}

/-- The environment's events at this boundary, but for resets, the watchdog's time-out and wake-up (rule R211 step 0). -/
def applyInput (s : State) (inp : Input) : State :=
  let t := clockTimer0 (runTimer0 s) (t0ckiClocks s inp.t0cki)
  { t with
    intcon := t.intcon ||| raisedFlags s inp
    portA := Port.driven t.portA inp.pinsA
    portB := Port.driven t.portB inp.pinsB
    portC := Port.driven t.portC inp.pinsC
    furtherPorts := driveFurther t.device.furtherPorts t.furtherPorts inp.pinsFurther
    peripheral := inp.peripheral.getD t.peripheral
    prescaler := if prescalerOnWdt t then inp.prescale.getD t.prescaler else t.prescaler
    wdt := if t.sleeping && t.device.wdtEnabled then t.wdt + inp.idle else t.wdt
    tick := t.tick + 1
    inputs := t.inputs.tail }

/-- Does the watchdog time out here? Only if it runs and at least `WDT_MIN_PERIOD` cycles have passed since its last
clear (rules R204, R205). -/
def wdtFires (s : State) (inp : Input) : Bool :=
  inp.wdtTimeout && s.device.wdtEnabled && decide (s.device.wdtMinPeriod ≤ s.wdt)

/-! ## Step 1: resets (rules R220, R222) -/

/-- The further ports after a reset: those of the given number, each changed by `f` with its reset values (rule R50). -/
def resetFurther (d : Device) (f : PortReset → Port → Port) (ports : List (Nat × Port)) : Nat → List (Nat × Port)
  | 0 => ports
  | n + 1 =>
    cellWrite unlistedPort (resetFurther d f ports n) n (f (Device.portReset d (.further n)) (cellRead unlistedPort ports n))

/-- What a reset other than power-on leaves (rules R50, R220, R222): W, FSR, the general-purpose registers, Z, DC and C as
they were; INTCON, OPTION_REG, TMR0 and the ports as the device's reset values say, a bit without one as it was (logs 23,
31); TO and PD as given. DESIGN CHOICE, unsafe (log 23): the stack is empty, and the entries it held, which R50 leaves
unspecified, stay in their slots, where a pop of the empty stack of a circular device reads them. -/
def restart (s : State) (tOut pDown : Bool) : State :=
  { s with
    pc := s.device.resetVector
    status := setBit (setBit (s.status &&& 0x1F#8) bitTO tOut) bitPD pDown
    pclath := resetPclath
    intcon := Device.intconAfterReset s.device s.intcon
    optionReg := afterReset s.device.optionReset s.optionReg
    tmr0 := afterReset s.device.tmr0Reset s.tmr0
    portA := Port.afterReset (Device.portReset s.device .a) s.portA
    portB := Port.afterReset (Device.portReset s.device .b) s.portB
    portC := Port.afterReset (Device.portReset s.device .c) s.portC
    furtherPorts := resetFurther s.device Port.afterReset s.furtherPorts s.device.furtherPorts
    stackPtr := 0
    stackLive := 0
    prescaler := 0
    t0Inhibit := 0
    wdt := 0
    sleeping := false
    elapsed := 0 }

/-- A power-on reset: every register as `State.reset` says, with this device's reset values; the program, the device, the
outside and the model's own counters stay (rules R50, R220). -/
def powerOnReset (s : State) : State :=
  { State.reset with
    pc := s.device.resetVector
    intcon := Device.intconAfterReset s.device powerOnUnspecified
    optionReg := afterReset s.device.optionReset powerOnUnspecified
    tmr0 := afterReset s.device.tmr0Reset powerOnUnspecified
    portA := Port.powerOn (Device.portReset s.device .a) s.portA.pins
    portB := Port.powerOn (Device.portReset s.device .b) s.portB.pins
    portC := Port.powerOn (Device.portReset s.device .c) s.portC.pins
    furtherPorts := resetFurther s.device (fun r p => Port.powerOn r p.pins) s.furtherPorts s.device.furtherPorts
    prog := s.prog
    peripheral := s.peripheral
    cycles := s.cycles
    tick := s.tick
    inputs := s.inputs
    device := s.device }

/-- An external reset: TO and PD unchanged when awake, TO = 1 and PD = 0 when asleep (rule R220). -/
def externalReset (s : State) : State :=
  if s.sleeping then restart s true false else restart s s.flagTO s.flagPD

/-- A watchdog time-out while awake: TO = 0, PD = 1 (rules R205, R220). -/
def watchdogReset (s : State) : State := restart s false true

/-! ## Step 2: wake-up (rules R205, R210) -/

/-- A watchdog time-out while asleep: TO = 0, PD = 0, no reset; the counter starts again. -/
def watchdogWake (s : State) : State :=
  { s.setToPd false false with sleeping := false, wdt := 0 }

/-- Does an interrupt source that works without the oscillator set its flag at this boundary while its enable bit is 1?
(rule R210 (c); the INT pin, port B change, peripherals) -/
def interruptWakes (before after : State) (inp : Input) : Bool :=
  (bitOf after.intcon bitINTE && bitOf (raisedFlags before inp) bitINTF)
  || (bitOf after.intcon bitRBIE && bitOf (raisedFlags before inp) bitRBIF)
  || (bitOf after.intcon bitPEIE && inp.peripheral == some true)

/-! ## Step 3: is an interrupt taken? (rules R194, R198) -/

/-- Request() of rule R194. -/
def interruptRequest (s : State) : Bool :=
  (bitOf s.intcon bitT0IE && bitOf s.intcon bitT0IF)
  || (bitOf s.intcon bitINTE && bitOf s.intcon bitINTF)
  || (bitOf s.intcon bitRBIE && bitOf s.intcon bitRBIF)
  || (bitOf s.intcon bitPEIE && s.peripheral)

/-- Take() of rule R194. -/
def interruptDue (s : State) : Bool := s.gie && interruptRequest s

/-- Is a due interrupt left for a later boundary? The input says, or it is free (rule R198, log 7). -/
def interruptHeld (s : State) (inp : Input) : Bool := inp.hold.getD (Config.interruptHeld s.tick)

/-- What the core does in this step, after the environment. -/
inductive Turn where
  | rest (t : State)        -- a reset was applied, or the core sleeps on
  | interrupt (t : State)   -- the entry of rule R196
  | run (t : State)         -- fetch and execute (rule R211, steps 4 to 6)
  deriving DecidableEq, Repr

/-- Steps 0 to 3 of rule R211. After a wake-up by an interrupt source the instruction after the SLEEP comes first.
DESIGN CHOICE, unsafe (log 30): where a watchdog time-out and such a source come at the same boundary of a sleeping core,
which R210 does not order, both have their effect: TO = PD = 0 as (b) says, and the instruction after the SLEEP comes before
the interrupt as (c) says.
DESIGN CHOICE, unsafe (log 32): where an outside reset and a watchdog time-out of an awake core come at the same boundary,
which R197 and R211 do not order, the outside reset alone is applied: TO and PD are its own, and the time-out is lost. -/
def turn (s : State) : Turn :=
  let inp := s.input
  let t := applyInput s inp
  match inp.reset with
  | some .powerOn => .rest (powerOnReset t)
  | some .external => .rest (externalReset t)
  | none =>
    if t.sleeping then
      let u := if wdtFires t inp then watchdogWake t else t
      if interruptWakes s t inp then .run { u with sleeping := false }
      else if wdtFires t inp then (if interruptDue u && !interruptHeld u inp then .interrupt u else .run u)
      else .rest t
    else if wdtFires t inp then .rest (watchdogReset t)
    else if interruptDue t && !interruptHeld t inp then .interrupt t
    else .run t

end Sys2Proof.Machine
end

