-- ==== Sys2Proof/WellFormed.lean ====
section
/-! DEFINITION. Which instruction terms stand for an instruction of the machine. The operand types already hold every
range of rule R96 but one: TRIS has 5 ≤ f ≤ 7 (rule R187). -/

namespace Sys2Proof

/-- The one operand check the types leave open: TRIS names register 5, 6 or 7 (rules R96, R187). -/
def Instr.wellFormed : Instr → Bool
  | .tris f => 5#3 ≤ f
  | _ => true

end Sys2Proof
end

