-- ==== Sys2Proof/Decode.lean ====
section
/-! DEFINITION. The opcode map of rule R98 as a table of rows, the decoder that reads it, and the encoder that gives the
canonical word of an instruction (rule R108). -/

namespace Sys2Proof

/-- Why a word is no instruction. -/
inductive DecodeError where
  | reservedOpcode   -- one of the 372 unused words of rule R99
  deriving DecidableEq, Repr

/-- One row of the opcode map: a word `w` is the row's instruction when `w &&& mask = pattern`; `build` takes the operand
fields out of it. -/
structure OpcodeRow where
  pattern : OpWord
  mask    : OpWord
  build   : OpWord → Instr

/-- Field f, bits 6:0 (rule R96). -/
def fieldF (w : OpWord) : BitVec 7 := w.extractLsb' 0 7

/-- Field d, bit 7 (rule R96). -/
def fieldD (w : OpWord) : Dest := if w.getLsbD 7 then .f else .w

/-- Field b, bits 9:7 (rule R96). -/
def fieldB (w : OpWord) : BitVec 3 := w.extractLsb' 7 3

/-- Field k of the LIT8 format, bits 7:0 (rule R96). -/
def fieldK8 (w : OpWord) : BitVec 8 := w.extractLsb' 0 8

/-- Field k of the LIT11 format, bits 10:0 (rule R96). -/
def fieldK11 (w : OpWord) : BitVec 11 := w.extractLsb' 0 11

/-- Field f of TRIS, bits 2:0 (rule R96). -/
def fieldTris (w : OpWord) : BitVec 3 := w.extractLsb' 0 3

/-- The rows with no operand, and MOVWF, CLRW and CLRF beside them (rules R91, R95, R98). -/
def fixedRows : List OpcodeRow :=
  [ ⟨0x0000#14, 0x3F9F#14, fun _ => .nop⟩,
    ⟨0x0008#14, 0x3FFF#14, fun _ => .ret⟩,
    ⟨0x0009#14, 0x3FFF#14, fun _ => .retfie⟩,
    ⟨0x0062#14, 0x3FFF#14, fun _ => .option⟩,
    ⟨0x0063#14, 0x3FFF#14, fun _ => .sleep⟩,
    ⟨0x0064#14, 0x3FFF#14, fun _ => .clrwdt⟩,
    ⟨0x0065#14, 0x3FFF#14, fun w => .tris (fieldTris w)⟩,
    ⟨0x0066#14, 0x3FFF#14, fun w => .tris (fieldTris w)⟩,
    ⟨0x0067#14, 0x3FFF#14, fun w => .tris (fieldTris w)⟩,
    ⟨0x0080#14, 0x3F80#14, fun w => .movwf (fieldF w)⟩,
    ⟨0x0100#14, 0x3F80#14, fun _ => .clrw⟩,
    ⟨0x0180#14, 0x3F80#14, fun w => .clrf (fieldF w)⟩ ]

/-- The rows of format BYTE with an operand d (rules R91, R98). -/
def byteRows : List OpcodeRow :=
  [ ⟨0x0200#14, 0x3F00#14, fun w => .subwf (fieldF w) (fieldD w)⟩,
    ⟨0x0300#14, 0x3F00#14, fun w => .decf (fieldF w) (fieldD w)⟩,
    ⟨0x0400#14, 0x3F00#14, fun w => .iorwf (fieldF w) (fieldD w)⟩,
    ⟨0x0500#14, 0x3F00#14, fun w => .andwf (fieldF w) (fieldD w)⟩,
    ⟨0x0600#14, 0x3F00#14, fun w => .xorwf (fieldF w) (fieldD w)⟩,
    ⟨0x0700#14, 0x3F00#14, fun w => .addwf (fieldF w) (fieldD w)⟩,
    ⟨0x0800#14, 0x3F00#14, fun w => .movf (fieldF w) (fieldD w)⟩,
    ⟨0x0900#14, 0x3F00#14, fun w => .comf (fieldF w) (fieldD w)⟩,
    ⟨0x0A00#14, 0x3F00#14, fun w => .incf (fieldF w) (fieldD w)⟩,
    ⟨0x0B00#14, 0x3F00#14, fun w => .decfsz (fieldF w) (fieldD w)⟩,
    ⟨0x0C00#14, 0x3F00#14, fun w => .rrf (fieldF w) (fieldD w)⟩,
    ⟨0x0D00#14, 0x3F00#14, fun w => .rlf (fieldF w) (fieldD w)⟩,
    ⟨0x0E00#14, 0x3F00#14, fun w => .swapf (fieldF w) (fieldD w)⟩,
    ⟨0x0F00#14, 0x3F00#14, fun w => .incfsz (fieldF w) (fieldD w)⟩ ]

/-- The rows of format BIT (rules R92, R98). -/
def bitRows : List OpcodeRow :=
  [ ⟨0x1000#14, 0x3C00#14, fun w => .bcf (fieldF w) (fieldB w)⟩,
    ⟨0x1400#14, 0x3C00#14, fun w => .bsf (fieldF w) (fieldB w)⟩,
    ⟨0x1800#14, 0x3C00#14, fun w => .btfsc (fieldF w) (fieldB w)⟩,
    ⟨0x1C00#14, 0x3C00#14, fun w => .btfss (fieldF w) (fieldB w)⟩ ]

/-- The rows of formats LIT11 and LIT8 (rules R93, R94, R98). -/
def literalRows : List OpcodeRow :=
  [ ⟨0x2000#14, 0x3800#14, fun w => .call (fieldK11 w)⟩,
    ⟨0x2800#14, 0x3800#14, fun w => .goto (fieldK11 w)⟩,
    ⟨0x3000#14, 0x3C00#14, fun w => .movlw (fieldK8 w)⟩,
    ⟨0x3400#14, 0x3C00#14, fun w => .retlw (fieldK8 w)⟩,
    ⟨0x3800#14, 0x3F00#14, fun w => .iorlw (fieldK8 w)⟩,
    ⟨0x3900#14, 0x3F00#14, fun w => .andlw (fieldK8 w)⟩,
    ⟨0x3A00#14, 0x3F00#14, fun w => .xorlw (fieldK8 w)⟩,
    ⟨0x3C00#14, 0x3E00#14, fun w => .sublw (fieldK8 w)⟩,
    ⟨0x3E00#14, 0x3E00#14, fun w => .addlw (fieldK8 w)⟩ ]

/-- The whole opcode map of rule R98, in its order. -/
def opcodeRows : List OpcodeRow := fixedRows ++ byteRows ++ bitRows ++ literalRows

/-- Does the word match the row? (rule R98) -/
def OpcodeRow.accepts (r : OpcodeRow) (w : OpWord) : Bool := w &&& r.mask = r.pattern

/-- The decoder: total on every word; a word that no row accepts is reserved (rules R98, R99). -/
def decode (w : OpWord) : Except DecodeError Instr :=
  match opcodeRows.find? (·.accepts w) with
  | some r => .ok (r.build w)
  | none => .error .reservedOpcode

/-- The d bit in its place, bit 7. -/
def destBit : Dest → OpWord
  | .w => 0x0000#14
  | .f => 0x0080#14

/-- A word of format BYTE (rule R91). -/
def byteWord (base : OpWord) (f : BitVec 7) (d : Dest) : OpWord := base ||| destBit d ||| f.zeroExtend 14

/-- A word of format BIT (rule R92). -/
def bitWord (base : OpWord) (f : BitVec 7) (b : BitVec 3) : OpWord :=
  base ||| (b.zeroExtend 14 <<< 7) ||| f.zeroExtend 14

/-- The canonical word of an instruction: every don't-care bit 0 (rules R98, R108). -/
def encode : Instr → OpWord
  | .addwf f d => byteWord 0x0700#14 f d
  | .andwf f d => byteWord 0x0500#14 f d
  | .clrf f => 0x0180#14 ||| f.zeroExtend 14
  | .clrw => 0x0100#14
  | .comf f d => byteWord 0x0900#14 f d
  | .decf f d => byteWord 0x0300#14 f d
  | .decfsz f d => byteWord 0x0B00#14 f d
  | .incf f d => byteWord 0x0A00#14 f d
  | .incfsz f d => byteWord 0x0F00#14 f d
  | .iorwf f d => byteWord 0x0400#14 f d
  | .movf f d => byteWord 0x0800#14 f d
  | .movwf f => 0x0080#14 ||| f.zeroExtend 14
  | .nop => 0x0000#14
  | .rlf f d => byteWord 0x0D00#14 f d
  | .rrf f d => byteWord 0x0C00#14 f d
  | .subwf f d => byteWord 0x0200#14 f d
  | .swapf f d => byteWord 0x0E00#14 f d
  | .xorwf f d => byteWord 0x0600#14 f d
  | .bcf f b => bitWord 0x1000#14 f b
  | .bsf f b => bitWord 0x1400#14 f b
  | .btfsc f b => bitWord 0x1800#14 f b
  | .btfss f b => bitWord 0x1C00#14 f b
  | .addlw k => 0x3E00#14 ||| k.zeroExtend 14
  | .andlw k => 0x3900#14 ||| k.zeroExtend 14
  | .call k => 0x2000#14 ||| k.zeroExtend 14
  | .clrwdt => 0x0064#14
  | .goto k => 0x2800#14 ||| k.zeroExtend 14
  | .iorlw k => 0x3800#14 ||| k.zeroExtend 14
  | .movlw k => 0x3000#14 ||| k.zeroExtend 14
  | .retfie => 0x0009#14
  | .retlw k => 0x3400#14 ||| k.zeroExtend 14
  | .ret => 0x0008#14
  | .sleep => 0x0063#14
  | .sublw k => 0x3C00#14 ||| k.zeroExtend 14
  | .xorlw k => 0x3A00#14 ||| k.zeroExtend 14
  | .option => 0x0062#14
  | .tris f => 0x0060#14 ||| f.zeroExtend 14

/-- The word with every don't-care bit of its row cleared (rules R97, R108): what an assembler emits for it. -/
def canonicalWord (w : OpWord) : OpWord :=
  if w &&& 0x3F80#14 = 0x0100#14 then w &&& 0x3F80#14            -- CLRW: bits 6:0
  else if w &&& 0x3F9F#14 = 0x0000#14 then w &&& 0x3F9F#14       -- NOP: bits 6:5
  else if w &&& 0x3800#14 = 0x3000#14 then w &&& 0x3CFF#14       -- MOVLW, RETLW: bits 9:8
  else if w &&& 0x3C00#14 = 0x3C00#14 then w &&& 0x3EFF#14       -- SUBLW, ADDLW: bit 8
  else w

/-- The instruction this decoder reads from the word `w` as spec/opcode_table.json numbers its bits. An instruction is one
14-bit word (rule R90), so `nbits` (whole bytes) adds nothing and a number with a bit above bit 13 is no word. -/
def decodeTableWord (_nbits w : Nat) : Option Instr :=
  if w < 2 ^ 14 then (decode (BitVec.ofNat 14 w)).toOption else none

end Sys2Proof
end

