-- ==== Sys2Proof/Machine/Fetch.lean ====
section
/-! DEFINITION. Fetch and decode (rule R211, steps 4 and 5), and the placing of a word where the next step fetches it. -/

namespace Sys2Proof.Machine

/-- The instruction as which a reserved word acts where it is not refused: a free one of those that words encode (rule R191,
log 10). -/
def reservedActsAs (word : OpWord) : Instr :=
  if (Config.reservedAs word).wellFormed then Config.reservedAs word else .nop

/-- The instruction at `pc`: `ProgRead(pc)` (rule R61), decoded by the opcode map (rule R98); a reserved word by
`RESERVED_OPCODE_MODE` (rule R191). -/
def fetch (s : State) : Host.Outcome Instr Fault Refusal :=
  if s.device.progWords ≤ s.pc.toNat then .refused .fetchUnimplemented
  else
    match cellLookup s.pc.toNat s.prog with
    | none => .fault .fetchUnloaded
    | some word =>
      match decode word with
      | .ok i => .next i
      | .error .reservedOpcode =>
        match s.device.reservedMode with
        | .refuse => .refused .reservedOpcode
        | .asInstruction => .next (reservedActsAs word)

/-- The state with `w` as the program word at `pc`, the core awake, and an environment that at the next boundary does
nothing and leaves a requesting interrupt for later (log 1). -/
def placeWord (s : State) (w : OpWord) : State :=
  { s with
    prog := cellInsert s.pc.toNat w s.prog
    sleeping := false
    inputs := [{ hold := some true }] }

end Sys2Proof.Machine
end

