-- ==== Sys2Proof/Machine/Step.lean ====
section
/-! DEFINITION. One step of the core agent (rule R211). -/

namespace Sys2Proof.Machine

/-- One step: the environment's events, then a reset, sleep, an interrupt entry, or one instruction (rule R211). -/
def step (s : State) : Host.Outcome State Fault Refusal :=
  match turn s with
  | .rest t => .next t
  | .interrupt t => enterInterrupt t
  | .run t =>
    match fetch t with
    | .next i => exec i t
    | .fault r => .fault r
    | .refused r => .refused r

/-- The state whose next step fetches and runs the instruction with the bits `w` (one 14-bit word, whatever `nbits`). -/
def State.withFetchWord (s : State) (_nbits w : Nat) : State := placeWord s (BitVec.ofNat 14 w)

end Sys2Proof.Machine
end

