-- ==== Sys2Proof/Safety.lean ====
section
/-! DEFINITION. What counts as a well-formed device and state, and the terms in which claims say what an instruction
writes and what it leaves alone. -/

namespace Sys2Proof.Machine

/-- A row of the data map the rules describe: a mirror stands for an address that exists and is no mirror (R64), and a
further port is one the device has (R7). -/
def Device.rowWf (d : Device) : DataKind → Bool
  | .mirror b => decide (b < 2 ^ d.dataAddrBits) && (match Device.kindAt d b with | .mirror _ => false | _ => true)
  | .port (.further n) => decide (n < d.furtherPorts)
  | .tris (.further n) => decide (n < d.furtherPorts)
  | _ => true

/-- A device the rules describe: 1 to 8192 program words (R7), a stack of at least one entry, every enable bit of INTCON 0
after a reset (R222), a data map of such rows, and OPTION and TRIS naming their registers or nothing (R186, R187). -/
def Device.wf (d : Device) : Bool :=
  decide (1 ≤ d.progWords) && decide (d.progWords ≤ 8192) && decide (1 ≤ d.stackDepth)
  && d.intconReset.fixed &&& 0x78#8 == 0x78#8 && d.intconReset.value &&& 0x78#8 == 0x00#8
  && d.dataMap.all (fun r => Device.rowWf d r.2)
  && (Device.kindAt d d.optionTarget == .optionReg || Device.kindAt d d.optionTarget == .unimplemented)
  && (Device.kindAt d d.tris5Target == .tris .a || Device.kindAt d d.tris5Target == .unimplemented)
  && (Device.kindAt d d.tris6Target == .tris .b || Device.kindAt d d.tris6Target == .unimplemented)
  && (Device.kindAt d d.tris7Target == .tris .c || Device.kindAt d d.tris7Target == .unimplemented)

/-- The addressing that R7 gives as defaults: the map, 9 address bits, RP1:RP0 and IRP. -/
def Device.defaultAddressing (d : Device) : Prop :=
  d.dataMap = defaultMap ∧ d.dataAddrBits = 9 ∧ d.bankSelect = defaultBankSelect ∧ d.irpSelect = defaultIrpSelect

/-- The machine's invariant: the three stores and the further ports in canonical form within their address spaces, the
stack pointer and count within the stack, PCLATH's unimplemented bits 0 (R26), and the device well formed. -/
def State.wf (s : State) : Bool :=
  Device.wf s.device
  && Memory.wf s.device.dataAddrBits s.mem
  && cellsCanonical unlistedPort s.device.furtherPorts s.furtherPorts
  && keysRise none 8192 s.prog
  && cellsCanonical unlistedEntry s.device.stackDepth s.stack
  && decide (s.stackPtr < s.device.stackDepth)
  && decide (s.stackLive ≤ s.device.stackDepth)
  && (s.pclath &&& ~~~s.device.pclathMask == 0#8)
  && decide (s.t0Inhibit ≤ 3)

/-- `t` is `s` after the byte `r` was written to the location `a` by an instruction that goes on at `npc` after `n` cycles
(R65): what the location holds then, and that nothing else changed but STATUS, which `StatusAfter` speaks of, and at TMR0
the inhibit of Timer0 (R203). -/
def WroteLocation (s t : State) (a : DAddr) (r : Byte) (npc : PAddr) (n : Nat) : Prop :=
  let onward := fun u : State => State.clock { u with status := t.status, pc := npc } n
  match Device.kindAt s.device a with
  | .general | .mirror _ =>
    t = onward { s with mem := t.mem } ∧ Memory.read t.mem a = r
    ∧ ∀ b, b ≠ a → Memory.read t.mem b = Memory.read s.mem b
  | .tmr0 =>
    t = onward { s with tmr0 := r, prescaler := if s.optionReg.getLsbD 3 then s.prescaler else 0, t0Inhibit := t.t0Inhibit }
  | .pcl => t = State.clock { s with status := t.status, pc := s.pclath.extractLsb' 0 5 ++ r } 2
  | .fsr => t = onward { s with fsr := r }
  | .pclath => t = onward { s with pclath := r &&& s.device.pclathMask }
  | .intcon => t = onward { s with intcon := r }
  | .optionReg => t = onward { s with optionReg := r }
  | .tris .a => t = onward { s with portA := { s.portA with tris := r } }
  | .tris .b => t = onward { s with portB := { s.portB with tris := r } }
  | .tris .c => t = onward { s with portC := { s.portC with tris := r } }
  | .port .a => t = onward { s with portA := { s.portA with latch := r } }
  | .port .b => t = onward { s with portB := { s.portB with latch := r } }
  | .port .c => t = onward { s with portC := { s.portC with latch := r } }
  | .tris (.further n) =>
    t = onward { s with furtherPorts := t.furtherPorts } ∧ t.port (.further n) = { s.port (.further n) with tris := r }
    ∧ ∀ m, m ≠ n → t.port (.further m) = s.port (.further m)
  | .port (.further n) =>
    t = onward { s with furtherPorts := t.furtherPorts } ∧ t.port (.further n) = { s.port (.further n) with latch := r }
    ∧ ∀ m, m ≠ n → t.port (.further m) = s.port (.further m)
  | .status | .indf | .device | .unimplemented => t = onward s

/-- `t` is `s` after the byte `r` was written to the file register `f` (R63, R65): nowhere, or at its location. -/
def WroteFile (s t : State) (f : BitVec 7) (r : Byte) (npc : PAddr) (n : Nat) : Prop :=
  match fileTarget s f with
  | none => t = State.clock { s with status := t.status, pc := npc } n
  | some a => WroteLocation s t a r npc n

/-- `t` is `s` after the result `r` was written to the destination `d` (R120). -/
def WroteDest (s t : State) (f : BitVec 7) (d : Dest) (r : Byte) (npc : PAddr) (n : Nat) : Prop :=
  match d with
  | .w => t = State.clock { s with w := r, status := t.status, pc := npc } n
  | .f => WroteFile s t f r npc n

/-- Is the data write of a result to the destination a write to STATUS? (R29) -/
def writesStatus (s : State) (f : BitVec 7) (d : Dest) : Bool :=
  match d, fileTarget s f with
  | .f, some a => Device.kindAt s.device a == .status
  | _, _ => false

/-- Every STATUS bit outside `flags` (the bits the instruction lists as affected) is as the data write left it: the byte
written through `STATUS_WRITE_MASK` if STATUS is the destination, unchanged if not (R29, R31). -/
def StatusAfter (s t : State) (f : BitVec 7) (d : Dest) (r flags : Byte) : Prop :=
  t.status &&& ~~~flags =
    (if writesStatus s f d then (r &&& s.device.statusWriteMask) ||| (s.status &&& ~~~s.device.statusWriteMask)
     else s.status) &&& ~~~flags

/-- The file-register operand's byte as a number. -/
def operand (s : State) (f : BitVec 7) : Nat := (regRead s f).toNat

/-- `t` is `s` after a literal operation left `r` in W and wrote at most the STATUS bits in `flags` (R160). -/
def WroteLiteral (s t : State) (r flags : Byte) : Prop :=
  t = State.clock { s with w := r, status := t.status, pc := s.pc + 1 } 1
  ∧ t.status &&& ~~~flags = s.status &&& ~~~flags

/-- There is room for a push: the stack is circular or not full (R35). -/
def canPush (s : State) : Bool := s.device.stackMode == .circular || decide (s.stackLive < s.device.stackDepth)

/-- There is an entry to pop: the stack is circular or not empty (R35). -/
def canPop (s : State) : Bool := s.device.stackMode == .circular || decide (0 < s.stackLive)

/-- The environment does nothing at the coming boundary (R212's premises). -/
def State.quiet (s : State) : Bool := s.input == {}

end Sys2Proof.Machine
end

