-- ==== Sys2Proof/Certificates/Slice0/Obligations.lean ====
section
/-! DEFINITION. The statements for the provers. Each docstring names the rules of spec/ it comes from; OBLIGATIONS.json lists
them with their quotes. -/

open Sys2Proof Sys2Proof.Machine

/-! ## Encoding and the step -/

/-- R98, R108: the canonical word of every well-formed instruction decodes to it, at every operand value. -/
def Obligations.DecodeOfEncode : Prop :=
  ∀ i : Instr, i.wellFormed = true → decode (encode i) = .ok i

/-- R97, R108: every accepted word is a well-formed instruction, and encoding it gives that word with the don't-care bits
of its row cleared. -/
def Obligations.EncodeOfDecodeIsCanonical : Prop :=
  ∀ (w : OpWord) (i : Instr), decode w = .ok i → i.wellFormed = true ∧ encode i = canonicalWord w

/-- R99: the words that no row accepts are exactly the ranges listed. -/
def Obligations.ReservedWordsAreTheListedOnes : Prop :=
  ∀ w : OpWord, decode w = .error .reservedOpcode ↔
    (0x0001#14 ≤ w ∧ w ≤ 0x0007#14) ∨ (0x000A#14 ≤ w ∧ w ≤ 0x001F#14) ∨ (0x0021#14 ≤ w ∧ w ≤ 0x003F#14)
    ∨ (0x0041#14 ≤ w ∧ w ≤ 0x005F#14) ∨ w = 0x0061#14 ∨ (0x0068#14 ≤ w ∧ w ≤ 0x007F#14)
    ∨ (0x3B00#14 ≤ w ∧ w ≤ 0x3BFF#14)

/-- R98: some words written out from the opcode map, one or more of each format. -/
def Obligations.SampleWordsDecode : Prop :=
  decode 0b00011110100000#14 = .ok (.addwf 0x20#7 .f) ∧ decode 0b01111110100000#14 = .ok (.btfss 0x20#7 7#3)
  ∧ decode 0b11111100001111#14 = .ok (.addlw 0x0F#8) ∧ decode 0b10011111111111#14 = .ok (.call 0x7FF#11)
  ∧ decode 0b00000001100110#14 = .ok (.tris 6#3) ∧ decode 0b00000001100000#14 = .ok .nop
  ∧ decode 0b00000101111111#14 = .ok .clrw ∧ decode 0b00000000001001#14 = .ok .retfie

/-- R211 steps 4 to 6: when it is the core's turn to run and the word at the pc of the state after the boundary decodes to
`i`, the step is `exec i` of that state. -/
def Obligations.StepRunsTheDecodedInstruction : Prop :=
  ∀ (s t : State) (word : OpWord) (i : Instr),
    turn s = .run t → t.pc.toNat < t.device.progWords → cellLookup t.pc.toNat t.prog = some word →
    decode word = .ok i → step s = exec i t

/-- R74, R211 step 0: at a boundary at which the environment does nothing, an awake core that no interrupt is due in runs,
in a state that differs from the one before in Timer0's part alone (TMR0, T0IF, prescaler count, the inhibit, the cycles
not yet given to it) and in the model's step number and inputs. -/
def Obligations.QuietBoundaryOnlyRunsTimer0 : Prop :=
  ∀ s : State, s.quiet = true → s.sleeping = false →
    (s.gie = false ∨ interruptRequest (applyInput s s.input) = false) →
    ∃ t, turn s = .run t
      ∧ t = { s with tmr0 := t.tmr0, intcon := t.intcon, prescaler := t.prescaler, t0Inhibit := t.t0Inhibit,
                     elapsed := 0, tick := s.tick + 1, inputs := s.inputs.tail }
      ∧ (t.intcon = s.intcon ∨ t.intcon = s.intcon ||| 0x04#8)
      ∧ (s.elapsed ≤ s.t0Inhibit → t.tmr0 = s.tmr0 ∧ t.intcon = s.intcon ∧ t.prescaler = s.prescaler)

/-- R61: a fetch at or above `PROG_WORDS` is refused; R99, R191: so is a reserved word, where `RESERVED_OPCODE_MODE` is its
default. -/
def Obligations.FetchRefusals : Prop :=
  ∀ s t : State, turn s = .run t →
    (t.device.progWords ≤ t.pc.toNat → step s = .refused .fetchUnimplemented)
    ∧ (t.device.reservedMode = .refuse → ∀ word, t.pc.toNat < t.device.progWords →
        cellLookup t.pc.toNat t.prog = some word → decode word = .error .reservedOpcode →
        step s = .refused .reservedOpcode)

/-- An instruction's encoding (rules R91 to R98): every word that has `pattern` under `mask` is the instruction `build` makes
of its operand fields. -/
def Encodes (pattern mask : OpWord) (build : OpWord → Instr) : Prop :=
  ∀ w : OpWord, w &&& mask = pattern → decode w = .ok (build w)

/-! ## Byte-oriented instructions

Where a result goes and what a write to each kind of location leaves is `WroteDest` (R65, R120); what stands where is the
device's map, whose default rows the spec takes from general knowledge (log 8). `StatusAfter` is R29's order of writes.
Cycle counts (R241) are the model's `cycles`, `elapsed` and `wdt` through `State.clock`. -/

/-- R122, R137 (with R121): ADDWF, and SUBWF as f minus W with C = 1 for no borrow, for both destinations and every location.
The clauses on DC rest on R121's definition of it, which the spec marks as general knowledge (log 19). -/
def Obligations.AddwfSubwfResult : Prop :=
  Encodes 0x0700#14 0x3F00#14 (fun w => .addwf (fieldF w) (fieldD w))
  ∧ Encodes 0x0200#14 0x3F00#14 (fun w => .subwf (fieldF w) (fieldD w))
  ∧ ∀ (f : BitVec 7) (d : Dest) (s : State),
    (∃ t, exec (.addwf f d) s = .next t
      ∧ WroteDest s t f d (BitVec.ofNat 8 (operand s f + s.w.toNat)) (s.pc + 1) 1
      ∧ StatusAfter s t f d (BitVec.ofNat 8 (operand s f + s.w.toNat)) 0x07#8
      ∧ t.flagC = decide (256 ≤ operand s f + s.w.toNat)
      ∧ t.flagDC = decide (16 ≤ operand s f % 16 + s.w.toNat % 16)
      ∧ t.flagZ = decide ((operand s f + s.w.toNat) % 256 = 0))
    ∧ (∃ t, exec (.subwf f d) s = .next t
      ∧ WroteDest s t f d (BitVec.ofNat 8 (operand s f + 256 - s.w.toNat)) (s.pc + 1) 1
      ∧ StatusAfter s t f d (BitVec.ofNat 8 (operand s f + 256 - s.w.toNat)) 0x07#8
      ∧ t.flagC = decide (s.w.toNat ≤ operand s f)
      ∧ t.flagDC = decide (s.w.toNat % 16 ≤ operand s f % 16)
      ∧ t.flagZ = decide (operand s f = s.w.toNat))

/-- The byte whose bit k is `g k`. -/
def IsBitwise (r : Byte) (g : Nat → Bool) : Prop := ∀ k, k < 8 → r.getLsbD k = g k

/-- R123, R131, R139: ANDWF, IORWF and XORWF bit by bit; only Z among the flags. -/
def Obligations.LogicWithFileResult : Prop :=
  Encodes 0x0500#14 0x3F00#14 (fun w => .andwf (fieldF w) (fieldD w))
  ∧ Encodes 0x0400#14 0x3F00#14 (fun w => .iorwf (fieldF w) (fieldD w))
  ∧ Encodes 0x0600#14 0x3F00#14 (fun w => .xorwf (fieldF w) (fieldD w))
  ∧ ∀ (f : BitVec 7) (d : Dest) (s : State), ∀ p ∈
      [ (Instr.andwf f d, fun k => (regRead s f).getLsbD k && s.w.getLsbD k),
        (Instr.iorwf f d, fun k => (regRead s f).getLsbD k || s.w.getLsbD k),
        (Instr.xorwf f d, fun k => ((regRead s f).getLsbD k != s.w.getLsbD k)) ],
    ∃ t r, exec p.1 s = .next t ∧ IsBitwise r p.2 ∧ WroteDest s t f d r (s.pc + 1) 1
      ∧ StatusAfter s t f d r 0x04#8 ∧ t.flagZ = decide (r.toNat = 0)

/-- R126, R132: COMF and MOVF; only Z among the flags. -/
def Obligations.ComfMovfResult : Prop :=
  Encodes 0x0900#14 0x3F00#14 (fun w => .comf (fieldF w) (fieldD w))
  ∧ Encodes 0x0800#14 0x3F00#14 (fun w => .movf (fieldF w) (fieldD w))
  ∧ ∀ (f : BitVec 7) (d : Dest) (s : State), ∀ p ∈
      [ (Instr.comf f d, 255 - operand s f), (Instr.movf f d, operand s f) ],
    ∃ t, exec p.1 s = .next t ∧ WroteDest s t f d (BitVec.ofNat 8 p.2) (s.pc + 1) 1
      ∧ StatusAfter s t f d (BitVec.ofNat 8 p.2) 0x04#8 ∧ t.flagZ = decide (p.2 = 0)

/-- R127, R129: DECF and INCF wrap and write only Z among the flags. -/
def Obligations.DecfIncfResult : Prop :=
  Encodes 0x0300#14 0x3F00#14 (fun w => .decf (fieldF w) (fieldD w))
  ∧ Encodes 0x0A00#14 0x3F00#14 (fun w => .incf (fieldF w) (fieldD w))
  ∧ ∀ (f : BitVec 7) (d : Dest) (s : State), ∀ p ∈
      [ (Instr.decf f d, (operand s f + 255) % 256), (Instr.incf f d, (operand s f + 1) % 256) ],
    ∃ t, exec p.1 s = .next t ∧ WroteDest s t f d (BitVec.ofNat 8 p.2) (s.pc + 1) 1
      ∧ StatusAfter s t f d (BitVec.ofNat 8 p.2) 0x04#8 ∧ t.flagZ = decide (p.2 = 0)

/-- R135, R136: the rotates through C; only C among the flags. -/
def Obligations.RotateResult : Prop :=
  Encodes 0x0D00#14 0x3F00#14 (fun w => .rlf (fieldF w) (fieldD w))
  ∧ Encodes 0x0C00#14 0x3F00#14 (fun w => .rrf (fieldF w) (fieldD w))
  ∧ ∀ (f : BitVec 7) (d : Dest) (s : State), ∀ p ∈
      [ (Instr.rlf f d, (2 * operand s f + s.flagC.toNat) % 256, decide (128 ≤ operand s f)),
        (Instr.rrf f d, operand s f / 2 + 128 * s.flagC.toNat, decide (operand s f % 2 = 1)) ],
    ∃ t, exec p.1 s = .next t ∧ WroteDest s t f d (BitVec.ofNat 8 p.2.1) (s.pc + 1) 1
      ∧ StatusAfter s t f d (BitVec.ofNat 8 p.2.1) 0x01#8 ∧ t.flagC = p.2.2

/-- R138: SWAPF exchanges the nibbles and affects no flag. -/
def Obligations.SwapfResult : Prop :=
  Encodes 0x0E00#14 0x3F00#14 (fun w => .swapf (fieldF w) (fieldD w))
  ∧ ∀ (f : BitVec 7) (d : Dest) (s : State), ∃ t, exec (.swapf f d) s = .next t
    ∧ WroteDest s t f d (BitVec.ofNat 8 (16 * (operand s f % 16) + operand s f / 16)) (s.pc + 1) 1
    ∧ StatusAfter s t f d (BitVec.ofNat 8 (16 * (operand s f % 16) + operand s f / 16)) 0x00#8

/-- R124, R133: CLRF writes 0 and sets Z; MOVWF writes W and affects no flag. -/
def Obligations.ClrfMovwfResult : Prop :=
  Encodes 0x0180#14 0x3F80#14 (fun w => .clrf (fieldF w))
  ∧ Encodes 0x0080#14 0x3F80#14 (fun w => .movwf (fieldF w))
  ∧ ∀ (f : BitVec 7) (s : State),
    (∃ t, exec (.clrf f) s = .next t ∧ WroteFile s t f 0x00#8 (s.pc + 1) 1
      ∧ StatusAfter s t f .f 0x00#8 0x04#8 ∧ t.flagZ = true)
    ∧ (∃ t, exec (.movwf f) s = .next t ∧ WroteFile s t f s.w (s.pc + 1) 1
      ∧ StatusAfter s t f .f s.w 0x00#8)

/-- R125, R134, R164: CLRW clears W and sets Z; MOVLW loads W and affects no flag; NOP changes nothing but the pc. -/
def Obligations.ClrwMovlwNopResult : Prop :=
  Encodes 0x0100#14 0x3F80#14 (fun _ => .clrw)
  ∧ Encodes 0x3000#14 0x3C00#14 (fun w => .movlw (fieldK8 w))
  ∧ Encodes 0x0000#14 0x3F9F#14 (fun _ => .nop)
  ∧ ∀ (k : BitVec 8) (s : State),
    (∃ t, exec .clrw s = .next t ∧ WroteLiteral s t 0x00#8 0x04#8 ∧ t.flagZ = true)
    ∧ (∃ t, exec (.movlw k) s = .next t ∧ WroteLiteral s t k 0x00#8)
    ∧ exec .nop s = .next (State.clock { s with pc := s.pc + 1 } 1)

/-- R128, R130, R140: DECFSZ and INCFSZ write the result and skip exactly when it is 0; no flag is affected. The form with
PCL as the destination is `SkipWithPclDestinationIsRefused`. -/
def Obligations.DecfszIncfszResult : Prop :=
  Encodes 0x0B00#14 0x3F00#14 (fun w => .decfsz (fieldF w) (fieldD w))
  ∧ Encodes 0x0F00#14 0x3F00#14 (fun w => .incfsz (fieldF w) (fieldD w))
  ∧ ∀ (f : BitVec 7) (d : Dest) (s : State), (d = .w ∨ namesPcl s f = false) → ∀ p ∈
      [ (Instr.decfsz f d, (operand s f + 255) % 256), (Instr.incfsz f d, (operand s f + 1) % 256) ],
    ∃ t, exec p.1 s = .next t
      ∧ WroteDest s t f d (BitVec.ofNat 8 p.2) (if p.2 = 0 then s.pc + 2 else s.pc + 1) (if p.2 = 0 then 2 else 1)
      ∧ StatusAfter s t f d (BitVec.ofNat 8 p.2) 0x00#8

/-- R140, R192 (the spec's own decision D22; log 15): DECFSZ and INCFSZ with d = 1 whose destination resolves to PCL are
SkipWithPclDest, whatever the value. -/
def Obligations.SkipWithPclDestinationIsRefused : Prop :=
  ∀ (f : BitVec 7) (a : DAddr) (s : State), fileTarget s f = some a → Device.kindAt s.device a = .pcl →
    exec (.decfsz f .f) s = .refused .skipWithPclDest ∧ exec (.incfsz f .f) s = .refused .skipWithPclDest

/-! ## Bit-oriented instructions -/

/-- R151, R152: BCF and BSF rewrite the whole byte with bit b cleared or set; no flag is affected. -/
def Obligations.BcfBsfResult : Prop :=
  Encodes 0x1000#14 0x3C00#14 (fun w => .bcf (fieldF w) (fieldB w))
  ∧ Encodes 0x1400#14 0x3C00#14 (fun w => .bsf (fieldF w) (fieldB w))
  ∧ ∀ (f : BitVec 7) (b : BitVec 3) (s : State), ∀ p ∈ [(Instr.bcf f b, false), (Instr.bsf f b, true)],
    ∃ t r, exec p.1 s = .next t
      ∧ IsBitwise r (fun k => if k = b.toNat then p.2 else (regRead s f).getLsbD k)
      ∧ WroteFile s t f r (s.pc + 1) 1 ∧ StatusAfter s t f .f r 0x00#8

/-- R153, R154: BTFSC and BTFSS skip when bit b is 0 and 1; nothing else changes. -/
def Obligations.BitTestSkips : Prop :=
  Encodes 0x1800#14 0x3C00#14 (fun w => .btfsc (fieldF w) (fieldB w))
  ∧ Encodes 0x1C00#14 0x3C00#14 (fun w => .btfss (fieldF w) (fieldB w))
  ∧ ∀ (f : BitVec 7) (b : BitVec 3) (s : State), ∀ p ∈ [(Instr.btfsc f b, false), (Instr.btfss f b, true)],
    exec p.1 s = .next (if (operand s f).testBit b.toNat = p.2 then State.clock { s with pc := s.pc + 2 } 2
                        else State.clock { s with pc := s.pc + 1 } 1)

/-! ## Literal instructions -/

/-- R161, R165 (with R121): ADDLW, and SUBLW as literal minus W. -/
def Obligations.AddlwSublwResult : Prop :=
  Encodes 0x3E00#14 0x3E00#14 (fun w => .addlw (fieldK8 w))
  ∧ Encodes 0x3C00#14 0x3E00#14 (fun w => .sublw (fieldK8 w))
  ∧ ∀ (k : BitVec 8) (s : State),
    (∃ t, exec (.addlw k) s = .next t ∧ WroteLiteral s t (BitVec.ofNat 8 (s.w.toNat + k.toNat)) 0x07#8
      ∧ t.flagC = decide (256 ≤ s.w.toNat + k.toNat) ∧ t.flagDC = decide (16 ≤ s.w.toNat % 16 + k.toNat % 16)
      ∧ t.flagZ = decide ((s.w.toNat + k.toNat) % 256 = 0))
    ∧ (∃ t, exec (.sublw k) s = .next t ∧ WroteLiteral s t (BitVec.ofNat 8 (k.toNat + 256 - s.w.toNat)) 0x07#8
      ∧ t.flagC = decide (s.w.toNat ≤ k.toNat) ∧ t.flagDC = decide (s.w.toNat % 16 ≤ k.toNat % 16)
      ∧ t.flagZ = decide (k.toNat = s.w.toNat))

/-- R162, R163, R166: ANDLW, IORLW, XORLW bit by bit; only Z among the flags. -/
def Obligations.LogicWithLiteralResult : Prop :=
  Encodes 0x3900#14 0x3F00#14 (fun w => .andlw (fieldK8 w))
  ∧ Encodes 0x3800#14 0x3F00#14 (fun w => .iorlw (fieldK8 w))
  ∧ Encodes 0x3A00#14 0x3F00#14 (fun w => .xorlw (fieldK8 w))
  ∧ ∀ (k : BitVec 8) (s : State), ∀ p ∈
      [ (Instr.andlw k, fun j => s.w.getLsbD j && k.getLsbD j), (Instr.iorlw k, fun j => s.w.getLsbD j || k.getLsbD j),
        (Instr.xorlw k, fun j => (s.w.getLsbD j != k.getLsbD j)) ],
    ∃ t r, exec p.1 s = .next t ∧ IsBitwise r p.2 ∧ WroteLiteral s t r 0x04#8 ∧ t.flagZ = decide (r.toNat = 0)

/-! ## Control instructions -/

/-- One entry more is on the stack of `t` than on that of `s` (in a full circular stack the oldest is gone), and every
other slot is as it was (R34, R35; slots and pointer are the model's form of the hidden stack, log 14). -/
def PushedOne (s t : State) : Prop :=
  t.stackPtr = (s.stackPtr + 1) % s.device.stackDepth ∧ t.stackLive = min (s.stackLive + 1) s.device.stackDepth
  ∧ ∀ n, n ≠ s.stackPtr → cellRead unlistedEntry t.stack n = cellRead unlistedEntry s.stack n

/-- R171: CALL pushes the return address and goes to PCLATH<4:3> : k; only the stack, the pc and the clocks change. What
`PushedOne` says of slots, pointer and count is the model's form of the hidden stack (log 14). -/
def Obligations.CallResult : Prop :=
  Encodes 0x2000#14 0x3800#14 (fun w => .call (fieldK11 w))
  ∧ ∀ (k : BitVec 11) (s : State), canPush s = true → s.stackPtr < s.device.stackDepth → ∃ t, exec (.call k) s = .next t
    ∧ t.pc.toNat = 2048 * (s.pclath.toNat / 8 % 4) + k.toNat
    ∧ tos t = s.pc + 1 ∧ PushedOne s t
    ∧ t = State.clock { s with pc := t.pc, stack := t.stack, stackPtr := t.stackPtr, stackLive := t.stackLive } 2

/-- R172: GOTO goes to PCLATH<4:3> : k; only the pc and the clocks change. -/
def Obligations.GotoResult : Prop :=
  Encodes 0x2800#14 0x3800#14 (fun w => .goto (fieldK11 w))
  ∧ ∀ (k : BitVec 11) (s : State), ∃ t, exec (.goto k) s = .next t
    ∧ t.pc.toNat = 2048 * (s.pclath.toNat / 8 % 4) + k.toNat ∧ t = State.clock { s with pc := t.pc } 2

/-- R173, R174, R175: the returns take the pc from the top of the stack and remove it; RETLW also loads W, RETFIE also
sets GIE; nothing else changes. The pointer and, of an empty circular stack (R35), the stale entry popped are the model's
form of the hidden stack (log 14). -/
def Obligations.ReturnsResult : Prop :=
  Encodes 0x0008#14 0x3FFF#14 (fun _ => .ret)
  ∧ Encodes 0x3400#14 0x3C00#14 (fun w => .retlw (fieldK8 w))
  ∧ Encodes 0x0009#14 0x3FFF#14 (fun _ => .retfie)
  ∧ ∀ (k : BitVec 8) (s : State), canPop s = true → ∀ p ∈
      [ (Instr.ret, s.w, s.intcon), (Instr.retlw k, k, s.intcon), (Instr.retfie, s.w, s.intcon ||| 0x80#8) ],
    ∃ t, exec p.1 s = .next t ∧ t.pc = tos s
      ∧ t = State.clock { s with w := p.2.1, intcon := p.2.2, pc := t.pc, stackPtr := t.stackPtr,
                                 stackLive := s.stackLive - 1 } 2
      ∧ t.stackPtr = (s.stackPtr + s.device.stackDepth - 1) % s.device.stackDepth

/-- R35, R192 (the spec's own decision D4; logs 14, 15): a push onto a full stack and a pop of an empty one are StackBounds
in the default mode. -/
def Obligations.StackBoundsRefusals : Prop :=
  ∀ (k : BitVec 11) (l : BitVec 8) (s : State), s.device.stackMode = .fault →
    (s.device.stackDepth ≤ s.stackLive →
      exec (.call k) s = .refused .stackBounds ∧ enterInterrupt s = .refused .stackBounds)
    ∧ (s.stackLive = 0 → exec .ret s = .refused .stackBounds ∧ exec (.retlw l) s = .refused .stackBounds
        ∧ exec .retfie s = .refused .stackBounds)

/-- The stack of `u` is that of `s`: pointer, count, every slot but the free one the pointer names, and so the top entry
(R34; slots and pointer are the model's form of the hidden stack, log 14). -/
def StackRestored (s u : State) : Prop :=
  u.stackPtr = s.stackPtr ∧ u.stackLive = s.stackLive
  ∧ (∀ n, n ≠ s.stackPtr → cellRead unlistedEntry u.stack n = cellRead unlistedEntry s.stack n)
  ∧ (0 < s.stackLive → tos u = tos s)

/-- R34, R171, R175 (slots, pointer and count: log 14): from any state with room for the call, RETURN goes back to the
instruction after the CALL, with the stack pointer and the count of live entries as before the CALL, every slot but the free
one that the CALL wrote as before it, and so the entry that was on top on top again. -/
def Obligations.CallThenReturn : Prop :=
  ∀ (k : BitVec 11) (s t : State), s.wf = true → s.stackLive < s.device.stackDepth → exec (.call k) s = .next t →
    ∃ u, exec .ret t = .next u ∧ u.pc = s.pc + 1 ∧ StackRestored s u

/-- R176: CLRWDT clears the WDT counter and its prescaler count and sets TO and PD, whatever the write mask. That the shared
count is cleared only while it is assigned to the WDT is the model's reading (log 12). -/
def Obligations.ClrwdtResult : Prop :=
  Encodes 0x0064#14 0x3FFF#14 (fun _ => .clrwdt)
  ∧ ∀ s : State, ∃ t, exec .clrwdt s = .next t ∧ t.flagTO = true ∧ t.flagPD = true
    ∧ t.status &&& 0xE7#8 = s.status &&& 0xE7#8
    ∧ t = { State.clock { s with pc := s.pc + 1 } 1 with
            status := t.status, wdt := 0, prescaler := if s.optionReg.getLsbD 3 then 0 else s.prescaler }

/-- R177: SLEEP does as CLRWDT but clears PD, and the core sleeps with the pc at the next instruction (general knowledge in
the spec; log 12 as above). -/
def Obligations.SleepResult : Prop :=
  Encodes 0x0063#14 0x3FFF#14 (fun _ => .sleep)
  ∧ ∀ s : State, ∃ t, exec .sleep s = .next t ∧ t.flagTO = true ∧ t.flagPD = false
    ∧ t.status &&& 0xE7#8 = s.status &&& 0xE7#8
    ∧ t = { State.clock { s with pc := s.pc + 1 } 1 with
            status := t.status, wdt := 0, prescaler := if s.optionReg.getLsbD 3 then 0 else s.prescaler, sleeping := true }

/-- R185, R186: OPTION writes W to the OPTION register whatever the bank bits are, and changes nothing else; on a device
whose target is unimplemented it writes nothing (R79). That the bank bits do not matter is the spec's inference (log 25). -/
def Obligations.OptionResult : Prop :=
  Encodes 0x0062#14 0x3FFF#14 (fun _ => .option)
  ∧ ∀ s : State, Device.wf s.device = true →
    exec .option s = .next (State.clock { s with
      pc := s.pc + 1
      optionReg := if Device.kindAt s.device s.device.optionTarget = .unimplemented then s.optionReg else s.w } 1)

/-- R185, R187: TRIS writes W to the TRIS register f names, f = 5, 6, 7, and changes nothing else; no effect on a device
without it; with another f it is no instruction (decisions D25, D26; logs 21, 25). -/
def Obligations.TrisResult : Prop :=
  Encodes 0x0065#14 0x3FFF#14 (fun _ => .tris 5#3)
  ∧ Encodes 0x0066#14 0x3FFF#14 (fun _ => .tris 6#3)
  ∧ Encodes 0x0067#14 0x3FFF#14 (fun _ => .tris 7#3)
  ∧ ∀ s : State, Device.wf s.device = true →
    exec (.tris 5#3) s = .next (State.clock { s with
      pc := s.pc + 1
      portA := if Device.kindAt s.device s.device.tris5Target = .unimplemented then s.portA else { s.portA with tris := s.w } } 1)
    ∧ exec (.tris 6#3) s = .next (State.clock { s with
      pc := s.pc + 1
      portB := if Device.kindAt s.device s.device.tris6Target = .unimplemented then s.portB else { s.portB with tris := s.w } } 1)
    ∧ exec (.tris 7#3) s = .next (State.clock { s with
      pc := s.pc + 1
      portC := if Device.kindAt s.device s.device.tris7Target = .unimplemented then s.portC else { s.portC with tris := s.w } } 1)
    ∧ ∀ f : BitVec 3, (Instr.tris f).wellFormed = false → exec (.tris f) s = .refused .illFormedTris

/-! ## File-register access -/

/-- R24, R27 (the spec's inference from the RETLW example; log 24): wherever `f` names PCL, the byte read is the low byte
of the address of the following instruction. -/
def Obligations.PclReadsNextAddress : Prop :=
  ∀ (s : State) (f : BitVec 7), namesPcl s f = true → operand s f = (s.pc.toNat + 1) % 256

/-- R71 with the default addressing (general knowledge in the spec, log 8): in every bank, f = 2, 3, 4, 0x0A and 0x0B name
PCL, STATUS, FSR, PCLATH and INTCON. -/
def Obligations.CoreRegistersInEveryBank : Prop :=
  ∀ s : State, Device.defaultAddressing s.device →
    fileTarget s 0x02#7 = some 0x02 ∧ fileTarget s 0x03#7 = some 0x03 ∧ fileTarget s 0x04#7 = some 0x04
    ∧ fileTarget s 0x0A#7 = some 0x0A ∧ fileTarget s 0x0B#7 = some 0x0B

/-- R63 with the default addressing (IRP, the map and INDF of INDF: general knowledge in the spec, logs 8, 17): what f = 0,
INDF, names and reads for every FSR. Where FSR<6:0> is 0 it names nothing and reads 0x00; where it is an offset that R71
mirrors, the core register at that offset; anywhere else the location STATUS<7> : FSR, be it a special function register of
banks 0 and 1 or data memory. A MOVWF through INDF leaves FSR as it was where FSR does not name FSR itself. -/
def Obligations.IndirectAddressing : Prop :=
  ∀ s : State, Device.defaultAddressing s.device →
    let offset := s.fsr.toNat % 128
    let address := 256 * (s.status.toNat / 128) + s.fsr.toNat
    fileTarget s 0x00#7 =
      (if offset = 0 then none else if offset ∈ [0x02, 0x03, 0x04, 0x0A, 0x0B] then some offset else some address)
    ∧ (regRead s 0x00#7).toNat =
      (if offset = 0x00 then 0 else if offset = 0x02 then (s.pc.toNat + 1) % 256 else if offset = 0x03 then s.status.toNat
       else if offset = 0x04 then s.fsr.toNat else if offset = 0x0A then s.pclath.toNat
       else if offset = 0x0B then s.intcon.toNat else if address = 0x01 then s.tmr0.toNat
       else if address = 0x05 then (s.pins .a).toNat else if address = 0x06 then (s.pins .b).toNat
       else if address = 0x07 then (s.pins .c).toNat else if address = 0x81 then s.optionReg.toNat
       else if address = 0x85 then s.portA.tris.toNat else if address = 0x86 then s.portB.tris.toNat
       else if address = 0x87 then s.portC.tris.toNat else (Memory.read s.mem address).toNat)
    ∧ (offset ≠ 4 → ∀ t, exec (.movwf 0x00#7) s = .next t → t.fsr = s.fsr)

/-- R64, R65 (default layout of the address: log 8): a byte written to a general-purpose register is read back through
the same operand by the next instruction, whatever the operand's way to it (direct, through INDF, or through a mirror).
-/
def Obligations.WrittenByteReadsBack : Prop :=
  ∀ (s t : State) (f g : BitVec 7) (a : DAddr), fileTarget s f = some a → Device.kindAt s.device a = .general →
    exec (.movwf f) s = .next t → fileTarget t g = some a →
    ∃ u, exec (.movf g .w) t = .next u ∧ u.w = s.w

/-- R29, R31: CLRF STATUS through the default mask leaves TO and PD and sets Z alone of the rest; with the mask 0xFF it
leaves 0000 0100b. The default mask is general knowledge in the spec (D8, log 16). -/
def Obligations.ClrfStatusKeepsToAndPd : Prop :=
  ∀ (s : State) (f : BitVec 7) (a : DAddr), fileTarget s f = some a → Device.kindAt s.device a = .status →
    ∃ t, exec (.clrf f) s = .next t
      ∧ (s.device.statusWriteMask = 0xE7#8 → t.status.toNat = s.status.toNat / 8 % 4 * 8 + 4)
      ∧ (s.device.statusWriteMask = 0xFF#8 → t.status = 0b00000100#8)

/-- R70, R231: what a port reads as. An output pin that nothing overdrives reads its latch bit, any other pin the level the
outside holds it at; where the outside is not known these are free values, for every value of which this holds. MOVF f,1
copies what was read into the latch. That an output reads its latch is general knowledge in the spec (D24, log 5). -/
def Obligations.PortReadsPinsAndRewritesLatch : Prop :=
  ∀ (s : State) (f : BitVec 7) (a : DAddr) (p : PortId), fileTarget s f = some a → Device.kindAt s.device a = .port p →
    (∀ drive, (s.port p).pins = some drive → ∀ k, k < 8 → (regRead s f).getLsbD k =
      if (s.port p).tris.getLsbD k || drive.overdriven.getLsbD k then drive.level.getLsbD k else (s.port p).latch.getLsbD k)
    ∧ ∃ t, exec (.movf f .f) s = .next t ∧ (t.port p).latch = regRead s f ∧ (t.port p).tris = (s.port p).tris

/-! ## Rules about every instruction -/

/-- R190, R192: no instruction faults, and the only refusals of a well-formed instruction are StackBounds of the stack
users and SkipWithPclDest of the two skips with a destination (the spec's own decisions D4, D22; log 15). -/
def Obligations.OnlyTheListedRefusals : Prop :=
  ∀ (i : Instr) (s : State), i.wellFormed = true →
    (∃ t, exec i s = .next t)
    ∨ (exec i s = .refused .stackBounds ∧ s.device.stackMode = .fault
        ∧ ((∃ k, i = .call k ∧ s.device.stackDepth ≤ s.stackLive)
          ∨ ((i = .ret ∨ i = .retfie ∨ ∃ k, i = .retlw k) ∧ s.stackLive = 0)))
    ∨ (exec i s = .refused .skipWithPclDest ∧ ∃ f, (i = .decfsz f .f ∨ i = .incfsz f .f) ∧ namesPcl s f = true)

/-- The instructions that write W (rule R20's list). -/
def WritesW : Instr → Bool
  | .clrw | .movlw _ | .retlw _ | .addlw _ | .andlw _ | .iorlw _ | .sublw _ | .xorlw _ => true
  | .addwf _ .w | .andwf _ .w | .comf _ .w | .decf _ .w | .decfsz _ .w | .incf _ .w | .incfsz _ .w | .iorwf _ .w => true
  | .movf _ .w | .rlf _ .w | .rrf _ .w | .subwf _ .w | .swapf _ .w | .xorwf _ .w => true
  | _ => false

/-- The instructions that read W (rule R20's list). -/
def ReadsW : Instr → Bool
  | .addwf _ _ | .andwf _ _ | .iorwf _ _ | .subwf _ _ | .xorwf _ _ | .movwf _ => true
  | .addlw _ | .andlw _ | .iorlw _ | .sublw _ | .xorlw _ | .option | .tris _ => true
  | _ => false

/-- R20: no instruction outside the list writes W. -/
def Obligations.OnlyTheListedInstructionsWriteW : Prop :=
  ∀ (i : Instr) (s t : State), exec i s = .next t → WritesW i = false → t.w = s.w

/-- R20: an instruction outside the list of readers of W does the same whatever W holds: run from two states that differ
only in W, it ends in two states that differ at most in W. -/
def Obligations.OnlyTheListedInstructionsReadW : Prop :=
  ∀ (i : Instr) (s t : State) (x : Byte), ReadsW i = false → exec i s = .next t →
    ∃ u, exec i { s with w := x } = .next u ∧ u = { t with w := u.w } ∧ (WritesW i = true → u.w = t.w)

/-- The file register that an instruction writes, if it writes one (rules R120, R124, R133, R150). -/
def FileWritten : Instr → Option (BitVec 7)
  | .clrf f | .movwf f | .bcf f _ | .bsf f _ => some f
  | .addwf f .f | .andwf f .f | .comf f .f | .decf f .f | .decfsz f .f | .incf f .f | .incfsz f .f | .iorwf f .f => some f
  | .movf f .f | .rlf f .f | .rrf f .f | .subwf f .f | .swapf f .f | .xorwf f .f => some f
  | _ => none

/-- R26 (the spec's inference): hardware never writes PCLATH: an instruction changes it only by a data write whose
location is PCLATH. -/
def Obligations.PclathChangesOnlyByDataWrites : Prop :=
  ∀ (i : Instr) (s t : State), Device.wf s.device = true → exec i s = .next t → t.pclath ≠ s.pclath →
    ∃ f a, FileWritten i = some f ∧ fileTarget s f = some a ∧ Device.kindAt s.device a = .pclath

/-- R32, R173, R194 (the flag rule is general knowledge in the spec): an instruction changes INTCON, GIE and the flag
bits among it, only by a data write whose location is INTCON, or, RETFIE, by setting GIE alone. -/
def Obligations.IntconChangesOnlyBySoftware : Prop :=
  ∀ (i : Instr) (s t : State), Device.wf s.device = true → exec i s = .next t → t.intcon ≠ s.intcon →
    (i = .retfie ∧ t.intcon = s.intcon ||| 0x80#8)
    ∨ ∃ f a, FileWritten i = some f ∧ fileTarget s f = some a ∧ Device.kindAt s.device a = .intcon

/-- R34: only CALL pushes and only RETURN, RETLW and RETFIE pop: no other instruction changes the stack, its pointer or the
count of its entries. -/
def Obligations.OnlyCallsAndReturnsUseTheStack : Prop :=
  ∀ (i : Instr) (s t : State), exec i s = .next t →
    (t.stack ≠ s.stack ∨ t.stackPtr ≠ s.stackPtr ∨ t.stackLive ≠ s.stackLive) →
    (∃ k, i = .call k) ∨ i = .ret ∨ i = .retfie ∨ ∃ k, i = .retlw k

/-- R209: only the SLEEP instruction puts the core to sleep: an awake core that sleeps after a step has run SLEEP in it. -/
def Obligations.OnlySleepEntersSleep : Prop :=
  ∀ s t : State, s.sleeping = false → step s = .next t → t.sleeping = true →
    ∃ u, turn s = .run u ∧ fetch u = .next .sleep

/-- R61, R77, R7 (decision D21): no step changes program memory or the device's parameters. -/
def Obligations.ProgramAndDeviceNeverChange : Prop :=
  ∀ s t : State, step s = .next t → t.prog = s.prog ∧ t.device = s.device

/-- The byte that an instruction of `FileWritten`'s list writes to its file register, as a number (40_byte_oriented.md,
41_bit_oriented.md). -/
def ByteWritten (s : State) : Instr → Nat
  | .clrf _ => 0
  | .movwf _ => s.w.toNat
  | .bcf f b => (regRead s f &&& ~~~(1#8 <<< b.toNat)).toNat
  | .bsf f b => (regRead s f ||| (1#8 <<< b.toNat)).toNat
  | .addwf f _ => (operand s f + s.w.toNat) % 256
  | .andwf f _ => (regRead s f &&& s.w).toNat
  | .comf f _ => 255 - operand s f
  | .decf f _ | .decfsz f _ => (operand s f + 255) % 256
  | .incf f _ | .incfsz f _ => (operand s f + 1) % 256
  | .iorwf f _ => (regRead s f ||| s.w).toNat
  | .movf f _ => operand s f
  | .rlf f _ => (2 * operand s f + s.flagC.toNat) % 256
  | .rrf f _ => operand s f / 2 + 128 * s.flagC.toNat
  | .subwf f _ => (operand s f + 256 - s.w.toNat) % 256
  | .swapf f _ => 16 * (operand s f % 16) + operand s f / 16
  | .xorwf f _ => (regRead s f ^^^ s.w).toNat
  | _ => 0

/-- The next pc and the cycles of an instruction, by the one row of R25's table that is its own: absolute, from the stack, a
skip taken, PCL written, or sequential. -/
def PcAfter (s : State) (i : Instr) : PAddr × Nat :=
  match i with
  | .call k | .goto k => (s.pclath.extractLsb' 3 2 ++ k, 2)
  | .ret | .retlw _ | .retfie => (tos s, 2)
  | .btfsc f b => if (operand s f).testBit b.toNat then (s.pc + 1, 1) else (s.pc + 2, 2)
  | .btfss f b => if (operand s f).testBit b.toNat then (s.pc + 2, 2) else (s.pc + 1, 1)
  | .decfsz f _ => if operand s f = 1 then (s.pc + 2, 2) else (s.pc + 1, 1)
  | .incfsz f _ => if operand s f = 255 then (s.pc + 2, 2) else (s.pc + 1, 1)
  | i =>
    match FileWritten i with
    | some f =>
      if namesPcl s f then (s.pclath.extractLsb' 0 5 ++ BitVec.ofNat 8 (ByteWritten s i), 2) else (s.pc + 1, 1)
    | none => (s.pc + 1, 1)

/-- R25: the pc and the cycles after any instruction are those of its one row of the table: CALL and GOTO go to
PCLATH<4:3> : k, the returns to the top of the stack, a skip taken two words on, a write of a byte v to PCL to
PCLATH<4:0> : v, and only the others to the next address. -/
def Obligations.NextPcIsOneOfTheListedCases : Prop :=
  ∀ (i : Instr) (s t : State), exec i s = .next t →
    t.pc = (PcAfter s i).1 ∧ t.cycles = s.cycles + (PcAfter s i).2

/-! ## Interrupts -/

/-- R196 (general knowledge in the spec, D14; stack form: log 14): interrupt entry pushes the pc, clears GIE, goes to
`INT_VECTOR` in two cycles and changes nothing else. -/
def Obligations.InterruptEntryResult : Prop :=
  ∀ s : State, canPush s = true → s.stackPtr < s.device.stackDepth → ∃ t, enterInterrupt s = .next t
    ∧ t.pc = s.device.intVector ∧ tos t = s.pc ∧ PushedOne s t ∧ t.gie = false ∧ t.intcon &&& 0x7F#8 = s.intcon &&& 0x7F#8
    ∧ t = State.clock { s with pc := t.pc, intcon := t.intcon, stack := t.stack, stackPtr := t.stackPtr,
                               stackLive := t.stackLive } 2

/-- R196, R199 (the entry is general knowledge in the spec, D14; slots, pointer and count: log 14): RETFIE undoes an
interrupt entry: the interrupted address, GIE set, INTCON and the stack (every slot but the free one that the entry wrote,
the pointer, the count and the top entry) as before the entry. -/
def Obligations.RetfieUndoesInterruptEntry : Prop :=
  ∀ s t : State, s.wf = true → s.gie = true → s.stackLive < s.device.stackDepth → enterInterrupt s = .next t →
    ∃ u, exec .retfie t = .next u ∧ u.pc = s.pc ∧ u.intcon = s.intcon ∧ u.w = s.w ∧ u.status = s.status
      ∧ u.pclath = s.pclath ∧ StackRestored s u

/-- R194 (general knowledge in the spec, D14): an interrupt is entered only when GIE = 1 and some source's flag and
enable bit are both 1 (for a peripheral source, PEIE); the core is then awake. -/
def Obligations.InterruptOnlyWhenEnabledAndPending : Prop :=
  ∀ s t : State, turn s = .interrupt t → t.sleeping = false ∧ t.intcon.getLsbD 7 = true
    ∧ ((t.intcon.getLsbD 5 = true ∧ t.intcon.getLsbD 2 = true) ∨ (t.intcon.getLsbD 4 = true ∧ t.intcon.getLsbD 1 = true)
      ∨ (t.intcon.getLsbD 3 = true ∧ t.intcon.getLsbD 0 = true) ∨ (t.intcon.getLsbD 6 = true ∧ t.peripheral = true))

/-- R198 (decision D14; whether a due interrupt waits is free, log 7): at a boundary at which Take() holds and nothing
comes before it, the interrupt is entered there or the instruction at the pc is run, as the environment's input says;
where the input does not say, either. -/
def Obligations.DueInterruptIsTakenOrHeld : Prop :=
  ∀ s : State, s.sleeping = false → s.input.reset = none → s.input.wdtTimeout = false →
    interruptDue (applyInput s s.input) = true →
    (s.input.hold = some false → step s = enterInterrupt (applyInput s s.input))
    ∧ (s.input.hold = some true → turn s = .run (applyInput s s.input))
    ∧ (step s = enterInterrupt (applyInput s s.input) ∨ turn s = .run (applyInput s s.input))

/-- R193, R194, R195 (general knowledge in the spec, D14; log 20): between instructions the environment only sets flag bits:
at a boundary that is no reset no INTCON bit is cleared, and GIE and the enable bits keep their values. INTF is then set
exactly if it was, if the input raises it or if it has an edge of the INT pin in the direction of INTEDG; RBIF exactly if it
was, if the input raises it or if it changes the known level of an input pin among port B<7:4>. -/
def Obligations.BoundaryOnlySetsFlagBits : Prop :=
  ∀ s t : State, (turn s = .run t ∨ turn s = .interrupt t) →
    t.intcon &&& 0xF8#8 = s.intcon &&& 0xF8#8 ∧ s.intcon &&& ~~~t.intcon = 0#8
    ∧ (t.intcon.getLsbD 1 = true ↔ s.intcon.getLsbD 1 = true ∨ s.input.raise.getLsbD 1 = true
        ∨ s.input.intEdge = some (if s.optionReg.getLsbD 6 then Edge.rising else Edge.falling))
    ∧ (t.intcon.getLsbD 0 = true ↔ s.intcon.getLsbD 0 = true ∨ s.input.raise.getLsbD 0 = true
        ∨ ∃ old new k, s.portB.pins = some old ∧ s.input.pinsB = some new ∧ 4 ≤ k ∧ k < 8
            ∧ s.portB.tris.getLsbD k = true ∧ old.level.getLsbD k ≠ new.level.getLsbD k)

/-! ## Reset, watchdog, sleep, Timer0 -/

/-- R50, R222: the values the rules give for the state after power-on (general knowledge in the spec, D15; log 8). -/
def Obligations.ResetStateValues : Prop :=
  State.reset.pc = 0x0000#13 ∧ State.reset.pclath = 0x00#8 ∧ State.reset.status.extractLsb' 5 3 = 0#3
  ∧ State.reset.flagTO = true ∧ State.reset.flagPD = true ∧ State.reset.intcon.extractLsb' 3 5 = 0#5
  ∧ State.reset.optionReg = 0xFF#8 ∧ State.reset.portA.tris = 0xFF#8 ∧ State.reset.portB.tris = 0xFF#8
  ∧ State.reset.portC.tris = 0xFF#8 ∧ State.reset.stackLive = 0 ∧ State.reset.wdt = 0 ∧ State.reset.prescaler = 0
  ∧ State.reset.sleeping = false

/-- Every bit of `new` that the reset gives a value has it (R50). -/
def HasResetBits (r : ResetByte) (new : Byte) : Prop := ∀ k, k < 8 → r.fixed.getLsbD k = true → new.getLsbD k = r.value.getLsbD k

/-- Every bit that the reset gives no value is in `new` as it was in `old` (log 23). -/
def KeptBits (r : ResetByte) (old new : Byte) : Prop := ∀ k, k < 8 → r.fixed.getLsbD k = false → new.getLsbD k = old.getLsbD k

/-- A port that the device has: TRIS 5, 6, 7's, or a further one of its number (R7). -/
def IsPort (d : Device) : PortId → Prop
  | .further n => n < d.furtherPorts
  | _ => True

/-- R50, R205, R220, R222 (general knowledge in the spec, D15, D16; logs 23, 28, 31, 32): a step in which a reset is due ends
at `RESET_VECTOR` with PCLATH, the bank bits and GIE 0, an empty stack and the core awake; the enable bits are 0, as R222
demands of the device; OPTION_REG, TMR0, the other INTCON bits and the ports have the reset values that are the device's
parameters, by default 0xFF in OPTION_REG and TRIS; TO and PD tell the cause; a reset that is not a power-on leaves W, FSR,
Z, DC, C, the general-purpose registers and the bits without a reset value as the boundary's events left them. -/
def Obligations.ResetsAndTheirCause : Prop :=
  ∀ s : State, s.input.reset ≠ none ∨ (s.sleeping = false ∧ wdtFires (applyInput s s.input) s.input = true) →
    ∃ t, step s = .next t
      ∧ t.pc = s.device.resetVector ∧ t.pclath = 0x00#8 ∧ t.status.extractLsb' 5 3 = 0#3
      ∧ t.gie = false ∧ t.stackLive = 0 ∧ t.sleeping = false ∧ t.wdt = 0 ∧ t.prescaler = 0
      ∧ (Device.wf s.device = true → t.intcon.extractLsb' 3 5 = 0#5)
      ∧ HasResetBits { s.device.intconReset with fixed := s.device.intconReset.fixed &&& 0x7F#8 } t.intcon
      ∧ HasResetBits s.device.optionReset t.optionReg ∧ HasResetBits s.device.tmr0Reset t.tmr0
      ∧ (∀ p, IsPort s.device p → HasResetBits (Device.portReset s.device p).latch (t.port p).latch
          ∧ HasResetBits (Device.portReset s.device p).tris (t.port p).tris)
      ∧ (s.device.optionReset = defaultDevice.optionReset → t.optionReg = 0xFF#8)
      ∧ (∀ p, IsPort s.device p → Device.portReset s.device p = defaultPortReset → (t.port p).tris = 0xFF#8)
      ∧ (s.input.reset = some .powerOn → t.flagTO = true ∧ t.flagPD = true)
      ∧ (s.input.reset = some .external → s.sleeping = false → t.flagTO = s.flagTO ∧ t.flagPD = s.flagPD)
      ∧ (s.input.reset = some .external → s.sleeping = true → t.flagTO = true ∧ t.flagPD = false)
      ∧ (s.input.reset = none → t.flagTO = false ∧ t.flagPD = true)
      ∧ (s.input.reset ≠ some .powerOn → t.w = s.w ∧ t.fsr = s.fsr ∧ t.mem = s.mem
          ∧ t.status.extractLsb' 0 3 = s.status.extractLsb' 0 3
          ∧ KeptBits { s.device.intconReset with fixed := s.device.intconReset.fixed ||| 0x80#8 }
              (applyInput s s.input).intcon t.intcon
          ∧ KeptBits s.device.optionReset s.optionReg t.optionReg
          ∧ KeptBits s.device.tmr0Reset (applyInput s s.input).tmr0 t.tmr0
          ∧ ∀ p, IsPort s.device p → KeptBits (Device.portReset s.device p).latch (s.port p).latch (t.port p).latch
              ∧ KeptBits (Device.portReset s.device p).tris (s.port p).tris (t.port p).tris)

/-- R204, R205 (decision D16; log 13): the watchdog never times out when it is not enabled, nor earlier than
`WDT_MIN_PERIOD` cycles after the last clear: an input's time-out then changes nothing in the step. -/
def Obligations.NoWatchdogTimeoutBeforeItsPeriod : Prop :=
  ∀ (s : State) (inp : Input) (rest : List Input), s.sleeping = false →
    (s.device.wdtEnabled = false ∨ s.wdt < s.device.wdtMinPeriod) →
    step { s with inputs := { inp with wdtTimeout := true } :: rest }
      = step { s with inputs := { inp with wdtTimeout := false } :: rest }

/-- R209 (that the state is kept is general knowledge in the spec): a sleeping core at whose boundary the environment does
nothing executes nothing and keeps its state: W, pc, the file registers and memories, STATUS and the stack; with Timer0's
own part given its last cycle, which can set T0IF and no other bit of INTCON. -/
def Obligations.SleepingCoreKeepsItsState : Prop :=
  ∀ s : State, s.sleeping = true → s.quiet = true → ∃ t, step s = .next t
    ∧ t = { s with tmr0 := t.tmr0, intcon := t.intcon, prescaler := t.prescaler, t0Inhibit := t.t0Inhibit,
                   elapsed := 0, tick := s.tick + 1, inputs := s.inputs.tail }
    ∧ (t.intcon = s.intcon ∨ t.intcon = s.intcon ||| 0x04#8)
    ∧ t.t0Inhibit = s.t0Inhibit - s.elapsed
    ∧ (s.elapsed ≤ s.t0Inhibit → t.tmr0 = s.tmr0 ∧ t.intcon = s.intcon ∧ t.prescaler = s.prescaler)

/-- An interrupt source that works without the oscillator sets its flag at the coming boundary while its enable bit is 1
(R210 (c)): INTE and INTF, RBIE and RBIF, or PEIE and a peripheral request. -/
def SourceWakes (s : State) : Prop :=
  (s.intcon.getLsbD 4 = true ∧ (raisedFlags s s.input).getLsbD 1 = true)
  ∨ (s.intcon.getLsbD 3 = true ∧ (raisedFlags s s.input).getLsbD 0 = true)
  ∨ (s.intcon.getLsbD 6 = true ∧ s.input.peripheral = some true)

/-- R205 (b), R210 (b), (c) (general knowledge in the spec, D16, D17; logs 18, 30): what wakes a sleeping core. A watchdog
time-out makes TO = 0 and PD = 0 and is no reset; an INT, port B or peripheral source that sets its flag while enabled wakes
it whatever GIE holds, leaves TO and PD, and the instruction after the SLEEP runs first; where both come at once, both have
their effect. But for a reset nothing else wakes it. -/
def Obligations.WakeUpEvents : Prop :=
  ∀ s : State, s.sleeping = true → s.input.reset = none →
    (wdtFires (applyInput s s.input) s.input = true → ∃ t, (turn s = .run t ∨ turn s = .interrupt t)
      ∧ t.sleeping = false ∧ t.flagTO = false ∧ t.flagPD = false ∧ t.pc = s.pc ∧ t.w = s.w
      ∧ (SourceWakes s → turn s = .run t))
    ∧ (wdtFires (applyInput s s.input) s.input = false → SourceWakes s →
        ∃ t, turn s = .run t ∧ t.sleeping = false ∧ t.pc = s.pc ∧ t.w = s.w ∧ t.status = s.status)
    ∧ (wdtFires (applyInput s s.input) s.input = false → ¬ SourceWakes s →
        ∃ t, step s = .next t ∧ t.sleeping = true ∧ t.pc = s.pc ∧ t.w = s.w ∧ t.status = s.status)

/-- R203 (general knowledge in the spec, D23; log 11): Timer0's count under the prescaler: giving it n and then m clocks
is giving it n + m. -/
def Obligations.Timer0ClocksAddUp : Prop :=
  ∀ (s : State) (n m : Nat), clockTimer0 (clockTimer0 s n) m = clockTimer0 s (n + m)

/-- The edges of the T0CKI pin that count (R203, R234; log 11): of the direction T0SE selects, and in a cycle of those
elapsed that no write to TMR0 inhibits; with no cycle elapsed, once the inhibit has run out. -/
def CountedEdges (s : State) (edges : List (Nat × Edge)) : Nat :=
  edges.countP (fun e => decide (e.2 = if s.optionReg.getLsbD 4 then Edge.falling else Edge.rising)
    && decide (s.t0Inhibit ≤ min e.1 (s.elapsed - 1)))

/-- R203 (general knowledge in the spec, D23; log 11): from a cleared prescaler, TMR0 counts up by one per `2^(n+1)` clocks
for PS2:PS0 = n, by one per clock when the prescaler is assigned to the WDT, and T0IF is set exactly on a roll-over. With
T0CS = 0 the clocks are the instruction cycles elapsed; with T0CS = 1 the edges of the T0CKI pin that count, and T0IF is then
also set where the input raises it. -/
def Obligations.Timer0CountsCycles : Prop :=
  (∀ s : State, s.optionReg.getLsbD 5 = false → s.t0Inhibit = 0 → s.prescaler = 0#8 →
    let n := if s.optionReg.getLsbD 3 then s.elapsed else s.elapsed / 2 ^ ((s.optionReg.extractLsb' 0 3).toNat + 1)
    (runTimer0 s).tmr0.toNat = (s.tmr0.toNat + n) % 256
    ∧ (runTimer0 s).intcon = (if 256 ≤ s.tmr0.toNat + n then s.intcon ||| 0x04#8 else s.intcon)
    ∧ (runTimer0 s).elapsed = 0)
  ∧ ∀ (s : State) (inp : Input), s.optionReg.getLsbD 5 = true → s.prescaler = 0#8 →
    let c := CountedEdges s inp.t0cki
    let n := if s.optionReg.getLsbD 3 then c else c / 2 ^ ((s.optionReg.extractLsb' 0 3).toNat + 1)
    (applyInput s inp).tmr0.toNat = (s.tmr0.toNat + n) % 256
    ∧ ((applyInput s inp).intcon.getLsbD 2 = true ↔
        s.intcon.getLsbD 2 = true ∨ inp.raise.getLsbD 2 = true ∨ 256 ≤ s.tmr0.toNat + n)

/-- R203, R234 (general knowledge there; log 11): after MOVWF TMR0 the count stays what was written through the writing
cycle and the two that follow, and counts again in the third, here with no prescaler: from the instruction clock (T0CS = 0),
and from the T0CKI pin's edges (T0CS = 1), of which none in those cycles counts, whether one or two boundaries hand them
over, and a selected one in the third does. -/
def Obligations.Timer0InhibitedAfterWrite : Prop :=
  ∀ (s t : State) (f : BitVec 7) (a : DAddr), fileTarget s f = some a → Device.kindAt s.device a = .tmr0 →
    s.elapsed = 0 → s.optionReg.getLsbD 3 = true → exec (.movwf f) s = .next t →
    (s.optionReg.getLsbD 5 = false →
      (∀ n, n ≤ 2 → (runTimer0 { t with elapsed := t.elapsed + n }).tmr0 = s.w)
      ∧ (runTimer0 { t with elapsed := t.elapsed + 3 }).tmr0 = s.w + 1)
    ∧ (s.optionReg.getLsbD 5 = true →
      ∀ inp : Input, (applyInput t inp).tmr0 = s.w
        ∧ (∀ (next : Input) (n : Nat), n ≤ 2 → (applyInput { applyInput t inp with elapsed := n } next).tmr0 = s.w)
        ∧ (∀ next last : Input, (applyInput { applyInput { applyInput t inp with elapsed := 1 } next with elapsed := 1 } last).tmr0
            = s.w)
        ∧ (applyInput { applyInput t inp with elapsed := 3 }
            { t0cki := [(2, if s.optionReg.getLsbD 4 then Edge.falling else Edge.rising)] }).tmr0 = s.w + 1)

/-! ## The invariant -/

/-- The state after reset is well formed. -/
def Obligations.ResetStateIsWellFormed : Prop := State.reset.wf = true

/-- Every step from a well-formed state ends in a well-formed state: the stores and the further ports keep their
canonical form within their address spaces, the stack pointer and count stay within the stack, PCLATH's unimplemented
bits stay 0 (R26, R34, R35, R60, R62). -/
def Obligations.StepKeepsWellFormed : Prop :=
  ∀ s t : State, s.wf = true → step s = .next t → t.wf = true
end

