-- ==== Sys2Proof/Laws/Decode.lean ====
section
/-! SUPPORT. The opcode map is unambiguous, so a word's instruction is that of any row that accepts it (rule R98). -/

namespace Sys2Proof

/-- No two rows of the opcode map accept a common word (rule R98). -/
theorem opcodeRows_disjoint :
    opcodeRows.Pairwise (fun r r' => r.pattern &&& r'.mask ≠ r'.pattern &&& r.mask) := by
  decide +kernel

theorem not_accepts_of_disjoint {r r' : OpcodeRow} {w : OpWord}
    (h : r.pattern &&& r'.mask ≠ r'.pattern &&& r.mask) (hw : r.accepts w = true) : r'.accepts w = false := by
  simp only [OpcodeRow.accepts, decide_eq_true_eq, decide_eq_false_iff_not] at hw ⊢
  rintro hw'
  apply h
  rw [← hw, ← hw', BitVec.and_assoc, BitVec.and_assoc, BitVec.and_comm r.mask]

theorem find_row {rows : List OpcodeRow} (hd : rows.Pairwise (fun r r' => r.pattern &&& r'.mask ≠ r'.pattern &&& r.mask))
    {r : OpcodeRow} (hr : r ∈ rows) {w : OpWord} (hw : r.accepts w = true) : rows.find? (·.accepts w) = some r := by
  induction rows with
  | nil => cases hr
  | cons q rest ih =>
    rw [List.pairwise_cons] at hd
    rcases List.mem_cons.mp hr with rfl | hr
    · simp [hw]
    · have : q.accepts w = false := not_accepts_of_disjoint (Ne.symm (hd.1 r hr)) hw
      simp [this, ih hd.2 hr]

/-- A word that a row accepts decodes to that row's instruction (rule R98). -/
theorem decode_of_row {r : OpcodeRow} (hr : r ∈ opcodeRows) {w : OpWord} (hw : r.accepts w = true) :
    decode w = .ok (r.build w) := by
  unfold decode
  rw [find_row opcodeRows_disjoint hr hw]

/-- A word that decodes was accepted by a row of the opcode map (rule R98). -/
theorem row_of_decode {w : OpWord} {i : Instr} (h : decode w = .ok i) :
    ∃ r ∈ opcodeRows, r.accepts w = true ∧ i = r.build w := by
  unfold decode at h
  split at h
  · rename_i r hr
    cases h
    exact ⟨r, List.mem_of_find?_eq_some hr, by simpa using List.find?_some hr, rfl⟩
  · cases h

end Sys2Proof
end

