-- ==== Sys2Proof/Laws/Flags.lean ====
section
/-! SUPPORT. Single bits, masks, and what the additions of rule R121 compute, as numbers. -/

namespace Sys2Proof.Machine

/-! ## Bits and masks -/

@[simp] theorem bitOf_setBit_same (v : Byte) (n : Nat) (b : Bool) (h : n < 8) : bitOf (setBit v n b) n = b := by
  cases b <;> simp [bitOf, setBit, h]

theorem bitOf_setBit_other (v : Byte) (n m : Nat) (b : Bool) (h : m ≠ n) : bitOf (setBit v n b) m = bitOf v m := by
  by_cases h8 : m < 8
  · cases b <;> simp [bitOf, setBit, h8] <;> omega
  · simp [bitOf, BitVec.getLsbD_of_ge _ m (Nat.le_of_not_lt h8)]

/-- Writing a bit inside the mask leaves everything outside it. -/
theorem setBit_outside (v : Byte) (n : Nat) (b : Bool) (m : Byte) (h : (1#8 <<< n) &&& ~~~m = 0#8) :
    setBit v n b &&& ~~~m = v &&& ~~~m := by
  apply BitVec.eq_of_getLsbD_eq
  intro k hk
  have h' : ((1#8 <<< n).getLsbD k && (~~~m).getLsbD k) = false := by
    have := congrArg (fun z : Byte => z.getLsbD k) h
    simpa only [BitVec.getLsbD_and, BitVec.getLsbD_zero] using this
  unfold setBit
  revert h'
  split <;> simp only [BitVec.getLsbD_and, BitVec.getLsbD_or, BitVec.getLsbD_not, hk] <;>
    cases (1#8 <<< n).getLsbD k <;> cases m.getLsbD k <;> simp

theorem mergeMask_bit (m v o : Byte) (k : Nat) :
    (mergeMask m v o).getLsbD k = if m.getLsbD k then v.getLsbD k else o.getLsbD k := by
  by_cases hk : k < 8
  · simp only [mergeMask, BitVec.getLsbD_or, BitVec.getLsbD_and, BitVec.getLsbD_not, hk]
    cases m.getLsbD k <;> cases v.getLsbD k <;> cases o.getLsbD k <;> rfl
  · simp [BitVec.getLsbD_of_ge _ k (Nat.le_of_not_lt hk)]

/-- TO and PD as given, and every other STATUS bit as it was. -/
theorem setToPd_bits (v : Byte) (x y : Bool) :
    bitOf (setBit (setBit v bitTO x) bitPD y) bitTO = x ∧ bitOf (setBit (setBit v bitTO x) bitPD y) bitPD = y
    ∧ setBit (setBit v bitTO x) bitPD y &&& ~~~0x18#8 = v &&& ~~~0x18#8 := by
  refine ⟨?_, bitOf_setBit_same _ _ _ (by decide), ?_⟩
  · rw [bitOf_setBit_other _ _ _ _ (by decide), bitOf_setBit_same _ _ _ (by decide)]
  · rw [setBit_outside _ _ _ _ (by decide), setBit_outside _ _ _ _ (by decide)]

/-! ## Sums -/

theorem sumWithCarry_value (a b : Byte) (c : BitVec 1) :
    (sumWithCarry a b c).value = BitVec.ofNat 8 (a.toNat + b.toNat + c.toNat) := by
  apply BitVec.eq_of_toNat_eq
  simp [sumWithCarry, BitVec.extractLsb'_toNat]

theorem sumWithCarry_c (a b : Byte) (c : BitVec 1) :
    (sumWithCarry a b c).c = decide (256 ≤ a.toNat + b.toNat + c.toNat) := by
  have ha := a.isLt
  have hb := b.isLt
  have hc := c.isLt
  simp only [sumWithCarry, BitVec.getLsbD, Nat.testBit_eq_decide_div_mod_eq, BitVec.toNat_add, BitVec.toNat_setWidth,
    BitVec.zeroExtend]
  congr 1
  simp
  omega

theorem lowNibble_toNat (a : Byte) : (a &&& 0x0F#8).toNat = a.toNat % 16 := by
  rw [BitVec.toNat_and]
  exact Nat.and_two_pow_sub_one_eq_mod a.toNat 4

theorem sumWithCarry_dc (a b : Byte) (c : BitVec 1) :
    (sumWithCarry a b c).dc = decide (16 ≤ a.toNat % 16 + b.toNat % 16 + c.toNat) := by
  have ha := a.isLt
  have hb := b.isLt
  have hc := c.isLt
  simp only [sumWithCarry, BitVec.getLsbD, Nat.testBit_eq_decide_div_mod_eq, BitVec.toNat_add, lowNibble_toNat,
    BitVec.toNat_setWidth, BitVec.zeroExtend]
  congr 1
  simp
  omega

theorem ofNat_beq_zero (n : Nat) : (BitVec.ofNat 8 n == 0#8) = decide (n % 256 = 0) := by
  rw [Bool.eq_iff_iff]
  simp [BitVec.toNat_eq]

end Sys2Proof.Machine
end

