-- ==== Sys2Proof/Laws/Stores.lean ====
section
/-! SUPPORT. The laws of the stores: a read after a write, and that every operation keeps the canonical form. -/

namespace Sys2Proof.Machine

variable {α : Type}

@[simp] theorem cellLookup_insert_same (a : Nat) (v : α) (m : List (Nat × α)) :
    cellLookup a (cellInsert a v m) = some v := by
  induction m with
  | nil => simp [cellInsert, cellLookup]
  | cons c rest ih =>
    obtain ⟨b, x⟩ := c
    unfold cellInsert
    split_ifs with h1 h2 <;> simp [cellLookup, *]

theorem cellLookup_insert_other {a b : Nat} (h : b ≠ a) (v : α) (m : List (Nat × α)) :
    cellLookup b (cellInsert a v m) = cellLookup b m := by
  induction m with
  | nil => simp [cellInsert, cellLookup, h]
  | cons c rest ih =>
    obtain ⟨k, x⟩ := c
    unfold cellInsert
    split_ifs with h1 h2
    · simp [cellLookup, h]
    · subst h2; simp [cellLookup, h]
    · simp [cellLookup, ih]

@[simp] theorem cellLookup_erase_same (a : Nat) (m : List (Nat × α)) : cellLookup a (cellErase a m) = none := by
  induction m with
  | nil => rfl
  | cons c rest ih =>
    obtain ⟨b, x⟩ := c
    unfold cellErase
    split_ifs with h
    · exact ih
    · simp [cellLookup, h, ih]

theorem cellLookup_erase_other {a b : Nat} (h : b ≠ a) (m : List (Nat × α)) :
    cellLookup b (cellErase a m) = cellLookup b m := by
  induction m with
  | nil => rfl
  | cons c rest ih =>
    obtain ⟨k, x⟩ := c
    unfold cellErase
    split_ifs with h'
    · subst h'; simp [cellLookup, h, ih]
    · simp [cellLookup, ih]

@[simp] theorem cellRead_write_same [DecidableEq α] (dflt : α) (m : List (Nat × α)) (a : Nat) (v : α) :
    cellRead dflt (cellWrite dflt m a v) a = v := by
  unfold cellRead cellWrite
  split_ifs with h <;> simp [h]

theorem cellRead_write_other [DecidableEq α] (dflt : α) (m : List (Nat × α)) {a b : Nat} (h : b ≠ a) (v : α) :
    cellRead dflt (cellWrite dflt m a v) b = cellRead dflt m b := by
  unfold cellRead cellWrite
  split_ifs <;> simp [cellLookup_insert_other h, cellLookup_erase_other h]

@[simp] theorem Memory.read_write_same (m : List Host.Cell) (a : DAddr) (v : Byte) :
    Memory.read (Memory.write m a v) a = v := cellRead_write_same _ _ _ _

theorem Memory.read_write_other (m : List Host.Cell) {a b : DAddr} (h : b ≠ a) (v : Byte) :
    Memory.read (Memory.write m a v) b = Memory.read m b :=
  cellRead_write_other _ _ h _

/-- The lower bound holds of the first key. -/
def aboveBound (lo : Option Nat) (a : Nat) : Prop := ∀ l, lo = some l → l < a

theorem keysRise_cons (lo : Option Nat) (hi b : Nat) (x : α) (rest : List (Nat × α)) :
    keysRise lo hi ((b, x) :: rest) = true ↔ aboveBound lo b ∧ b < hi ∧ keysRise (some b) hi rest = true := by
  cases lo <;> simp [keysRise, aboveBound, and_assoc]

theorem keysRise_weaken {lo lo' : Option Nat} (hi : Nat) (m : List (Nat × α))
    (h : ∀ a, aboveBound lo a → aboveBound lo' a) (hm : keysRise lo hi m = true) : keysRise lo' hi m = true := by
  cases m with
  | nil => rfl
  | cons c rest =>
    rw [keysRise_cons] at hm ⊢
    exact ⟨h _ hm.1, hm.2⟩

theorem keysRise_insert (lo : Option Nat) (hi a : Nat) (v : α) (m : List (Nat × α))
    (ha : aboveBound lo a) (hlt : a < hi) (hm : keysRise lo hi m = true) : keysRise lo hi (cellInsert a v m) = true := by
  induction m generalizing lo with
  | nil => rw [cellInsert, keysRise_cons]; exact ⟨ha, hlt, rfl⟩
  | cons c rest ih =>
    obtain ⟨b, x⟩ := c
    rw [keysRise_cons] at hm
    unfold cellInsert
    split_ifs with h1 h2
    · rw [keysRise_cons, keysRise_cons]
      exact ⟨ha, hlt, fun l hl => by simp at hl; omega, hm.2⟩
    · subst h2; rw [keysRise_cons]; exact ⟨ha, hm.2⟩
    · rw [keysRise_cons]
      exact ⟨hm.1, hm.2.1, ih _ (fun l hl => by simp at hl; omega) hm.2.2⟩

theorem keysRise_erase (lo : Option Nat) (hi a : Nat) (m : List (Nat × α))
    (hm : keysRise lo hi m = true) : keysRise lo hi (cellErase a m) = true := by
  induction m generalizing lo with
  | nil => rfl
  | cons c rest ih =>
    obtain ⟨b, x⟩ := c
    rw [keysRise_cons] at hm
    unfold cellErase
    split_ifs with h
    · refine ih _ (keysRise_weaken hi rest (fun k hk l hl => ?_) hm.2.2)
      have := hm.1 l hl
      have := hk b rfl
      omega
    · rw [keysRise_cons]; exact ⟨hm.1, hm.2.1, ih _ hm.2.2⟩

theorem mem_cellInsert {a : Nat} {v : α} {m : List (Nat × α)} {c : Nat × α}
    (h : c ∈ cellInsert a v m) : c = (a, v) ∨ c ∈ m := by
  induction m with
  | nil => simpa [cellInsert] using h
  | cons d rest ih =>
    obtain ⟨b, x⟩ := d
    unfold cellInsert at h
    split_ifs at h <;> simp only [List.mem_cons] at h ⊢ <;> tauto

theorem mem_cellErase {a : Nat} {m : List (Nat × α)} {c : Nat × α}
    (h : c ∈ cellErase a m) : c ∈ m := by
  induction m with
  | nil => exact h
  | cons d rest ih =>
    obtain ⟨b, x⟩ := d
    unfold cellErase at h
    split_ifs at h <;> simp only [List.mem_cons] at h ⊢ <;> tauto

/-- A write keeps the canonical form. -/
theorem cellsCanonical_write [DecidableEq α] (dflt : α) (hi a : Nat) (v : α) (m : List (Nat × α)) (ha : a < hi)
    (hm : cellsCanonical dflt hi m = true) : cellsCanonical dflt hi (cellWrite dflt m a v) = true := by
  simp only [cellsCanonical, Bool.and_eq_true, List.all_eq_true, decide_eq_true_eq] at hm ⊢
  unfold cellWrite
  split_ifs with h
  · exact ⟨keysRise_erase _ _ _ _ hm.1, fun c hc => hm.2 c (mem_cellErase hc)⟩
  · refine ⟨keysRise_insert _ _ _ _ _ (fun l hl => by simp at hl) ha hm.1, fun c hc => ?_⟩
    rcases mem_cellInsert hc with rfl | hc
    · exact h
    · exact hm.2 c hc

/-- Data memory keeps its canonical form under a write. -/
theorem Memory.wf_write (bits : Nat) (m : List Host.Cell) (a : DAddr) (v : Byte) (ha : a < 2 ^ bits)
    (hm : Memory.wf bits m = true) : Memory.wf bits (Memory.write m a v) = true :=
  cellsCanonical_write _ _ _ _ _ ha hm

/-- Data memory after reset is in its canonical form. -/
theorem Memory.wf_reset : Memory.wf State.reset.device.dataAddrBits State.reset.mem = true := rfl

end Sys2Proof.Machine
end

