-- ==== Sys2Proof/Laws/State.lean ====
section
/-! SUPPORT. For each named update of the state, what it does to each field: true by unfolding once, here. -/

namespace Sys2Proof.Machine

/-! ## State.clock -/

@[simp] theorem State.clock_w (s : State) (n : Nat) : (s.clock n).w = s.w := rfl
@[simp] theorem State.clock_pc (s : State) (n : Nat) : (s.clock n).pc = s.pc := rfl
@[simp] theorem State.clock_status (s : State) (n : Nat) : (s.clock n).status = s.status := rfl
@[simp] theorem State.clock_fsr (s : State) (n : Nat) : (s.clock n).fsr = s.fsr := rfl
@[simp] theorem State.clock_pclath (s : State) (n : Nat) : (s.clock n).pclath = s.pclath := rfl
@[simp] theorem State.clock_intcon (s : State) (n : Nat) : (s.clock n).intcon = s.intcon := rfl
@[simp] theorem State.clock_tmr0 (s : State) (n : Nat) : (s.clock n).tmr0 = s.tmr0 := rfl
@[simp] theorem State.clock_optionReg (s : State) (n : Nat) : (s.clock n).optionReg = s.optionReg := rfl
@[simp] theorem State.clock_portA (s : State) (n : Nat) : (s.clock n).portA = s.portA := rfl
@[simp] theorem State.clock_portB (s : State) (n : Nat) : (s.clock n).portB = s.portB := rfl
@[simp] theorem State.clock_portC (s : State) (n : Nat) : (s.clock n).portC = s.portC := rfl
@[simp] theorem State.clock_furtherPorts (s : State) (n : Nat) : (s.clock n).furtherPorts = s.furtherPorts := rfl
@[simp] theorem State.clock_mem (s : State) (n : Nat) : (s.clock n).mem = s.mem := rfl
@[simp] theorem State.clock_prog (s : State) (n : Nat) : (s.clock n).prog = s.prog := rfl
@[simp] theorem State.clock_stack (s : State) (n : Nat) : (s.clock n).stack = s.stack := rfl
@[simp] theorem State.clock_stackPtr (s : State) (n : Nat) : (s.clock n).stackPtr = s.stackPtr := rfl
@[simp] theorem State.clock_stackLive (s : State) (n : Nat) : (s.clock n).stackLive = s.stackLive := rfl
@[simp] theorem State.clock_prescaler (s : State) (n : Nat) : (s.clock n).prescaler = s.prescaler := rfl
@[simp] theorem State.clock_t0Inhibit (s : State) (n : Nat) : (s.clock n).t0Inhibit = s.t0Inhibit := rfl
@[simp] theorem State.clock_wdt (s : State) (n : Nat) : (s.clock n).wdt = if s.device.wdtEnabled then s.wdt + n else s.wdt := rfl
@[simp] theorem State.clock_sleeping (s : State) (n : Nat) : (s.clock n).sleeping = s.sleeping := rfl
@[simp] theorem State.clock_peripheral (s : State) (n : Nat) : (s.clock n).peripheral = s.peripheral := rfl
@[simp] theorem State.clock_cycles (s : State) (n : Nat) : (s.clock n).cycles = s.cycles + n := rfl
@[simp] theorem State.clock_elapsed (s : State) (n : Nat) : (s.clock n).elapsed = s.elapsed + n := rfl
@[simp] theorem State.clock_tick (s : State) (n : Nat) : (s.clock n).tick = s.tick := rfl
@[simp] theorem State.clock_inputs (s : State) (n : Nat) : (s.clock n).inputs = s.inputs := rfl
@[simp] theorem State.clock_device (s : State) (n : Nat) : (s.clock n).device = s.device := rfl

/-! ## State.next -/

@[simp] theorem State.next_w (s : State) : (s.next).w = s.w := rfl
@[simp] theorem State.next_pc (s : State) : (s.next).pc = s.pc + 1#13 := rfl
@[simp] theorem State.next_status (s : State) : (s.next).status = s.status := rfl
@[simp] theorem State.next_fsr (s : State) : (s.next).fsr = s.fsr := rfl
@[simp] theorem State.next_pclath (s : State) : (s.next).pclath = s.pclath := rfl
@[simp] theorem State.next_intcon (s : State) : (s.next).intcon = s.intcon := rfl
@[simp] theorem State.next_tmr0 (s : State) : (s.next).tmr0 = s.tmr0 := rfl
@[simp] theorem State.next_optionReg (s : State) : (s.next).optionReg = s.optionReg := rfl
@[simp] theorem State.next_portA (s : State) : (s.next).portA = s.portA := rfl
@[simp] theorem State.next_portB (s : State) : (s.next).portB = s.portB := rfl
@[simp] theorem State.next_portC (s : State) : (s.next).portC = s.portC := rfl
@[simp] theorem State.next_furtherPorts (s : State) : (s.next).furtherPorts = s.furtherPorts := rfl
@[simp] theorem State.next_mem (s : State) : (s.next).mem = s.mem := rfl
@[simp] theorem State.next_prog (s : State) : (s.next).prog = s.prog := rfl
@[simp] theorem State.next_stack (s : State) : (s.next).stack = s.stack := rfl
@[simp] theorem State.next_stackPtr (s : State) : (s.next).stackPtr = s.stackPtr := rfl
@[simp] theorem State.next_stackLive (s : State) : (s.next).stackLive = s.stackLive := rfl
@[simp] theorem State.next_prescaler (s : State) : (s.next).prescaler = s.prescaler := rfl
@[simp] theorem State.next_t0Inhibit (s : State) : (s.next).t0Inhibit = s.t0Inhibit := rfl
@[simp] theorem State.next_wdt (s : State) : (s.next).wdt = if s.device.wdtEnabled then s.wdt + 1 else s.wdt := rfl
@[simp] theorem State.next_sleeping (s : State) : (s.next).sleeping = s.sleeping := rfl
@[simp] theorem State.next_peripheral (s : State) : (s.next).peripheral = s.peripheral := rfl
@[simp] theorem State.next_cycles (s : State) : (s.next).cycles = s.cycles + 1 := rfl
@[simp] theorem State.next_elapsed (s : State) : (s.next).elapsed = s.elapsed + 1 := rfl
@[simp] theorem State.next_tick (s : State) : (s.next).tick = s.tick := rfl
@[simp] theorem State.next_inputs (s : State) : (s.next).inputs = s.inputs := rfl
@[simp] theorem State.next_device (s : State) : (s.next).device = s.device := rfl

/-! ## State.skip -/

@[simp] theorem State.skip_w (s : State) : (s.skip).w = s.w := rfl
@[simp] theorem State.skip_pc (s : State) : (s.skip).pc = s.pc + 2#13 := rfl
@[simp] theorem State.skip_status (s : State) : (s.skip).status = s.status := rfl
@[simp] theorem State.skip_fsr (s : State) : (s.skip).fsr = s.fsr := rfl
@[simp] theorem State.skip_pclath (s : State) : (s.skip).pclath = s.pclath := rfl
@[simp] theorem State.skip_intcon (s : State) : (s.skip).intcon = s.intcon := rfl
@[simp] theorem State.skip_tmr0 (s : State) : (s.skip).tmr0 = s.tmr0 := rfl
@[simp] theorem State.skip_optionReg (s : State) : (s.skip).optionReg = s.optionReg := rfl
@[simp] theorem State.skip_portA (s : State) : (s.skip).portA = s.portA := rfl
@[simp] theorem State.skip_portB (s : State) : (s.skip).portB = s.portB := rfl
@[simp] theorem State.skip_portC (s : State) : (s.skip).portC = s.portC := rfl
@[simp] theorem State.skip_furtherPorts (s : State) : (s.skip).furtherPorts = s.furtherPorts := rfl
@[simp] theorem State.skip_mem (s : State) : (s.skip).mem = s.mem := rfl
@[simp] theorem State.skip_prog (s : State) : (s.skip).prog = s.prog := rfl
@[simp] theorem State.skip_stack (s : State) : (s.skip).stack = s.stack := rfl
@[simp] theorem State.skip_stackPtr (s : State) : (s.skip).stackPtr = s.stackPtr := rfl
@[simp] theorem State.skip_stackLive (s : State) : (s.skip).stackLive = s.stackLive := rfl
@[simp] theorem State.skip_prescaler (s : State) : (s.skip).prescaler = s.prescaler := rfl
@[simp] theorem State.skip_t0Inhibit (s : State) : (s.skip).t0Inhibit = s.t0Inhibit := rfl
@[simp] theorem State.skip_wdt (s : State) : (s.skip).wdt = if s.device.wdtEnabled then s.wdt + 2 else s.wdt := rfl
@[simp] theorem State.skip_sleeping (s : State) : (s.skip).sleeping = s.sleeping := rfl
@[simp] theorem State.skip_peripheral (s : State) : (s.skip).peripheral = s.peripheral := rfl
@[simp] theorem State.skip_cycles (s : State) : (s.skip).cycles = s.cycles + 2 := rfl
@[simp] theorem State.skip_elapsed (s : State) : (s.skip).elapsed = s.elapsed + 2 := rfl
@[simp] theorem State.skip_tick (s : State) : (s.skip).tick = s.tick := rfl
@[simp] theorem State.skip_inputs (s : State) : (s.skip).inputs = s.inputs := rfl
@[simp] theorem State.skip_device (s : State) : (s.skip).device = s.device := rfl

/-! ## State.jump -/

@[simp] theorem State.jump_w (s : State) (a : PAddr) : (s.jump a).w = s.w := rfl
@[simp] theorem State.jump_pc (s : State) (a : PAddr) : (s.jump a).pc = a := rfl
@[simp] theorem State.jump_status (s : State) (a : PAddr) : (s.jump a).status = s.status := rfl
@[simp] theorem State.jump_fsr (s : State) (a : PAddr) : (s.jump a).fsr = s.fsr := rfl
@[simp] theorem State.jump_pclath (s : State) (a : PAddr) : (s.jump a).pclath = s.pclath := rfl
@[simp] theorem State.jump_intcon (s : State) (a : PAddr) : (s.jump a).intcon = s.intcon := rfl
@[simp] theorem State.jump_tmr0 (s : State) (a : PAddr) : (s.jump a).tmr0 = s.tmr0 := rfl
@[simp] theorem State.jump_optionReg (s : State) (a : PAddr) : (s.jump a).optionReg = s.optionReg := rfl
@[simp] theorem State.jump_portA (s : State) (a : PAddr) : (s.jump a).portA = s.portA := rfl
@[simp] theorem State.jump_portB (s : State) (a : PAddr) : (s.jump a).portB = s.portB := rfl
@[simp] theorem State.jump_portC (s : State) (a : PAddr) : (s.jump a).portC = s.portC := rfl
@[simp] theorem State.jump_furtherPorts (s : State) (a : PAddr) : (s.jump a).furtherPorts = s.furtherPorts := rfl
@[simp] theorem State.jump_mem (s : State) (a : PAddr) : (s.jump a).mem = s.mem := rfl
@[simp] theorem State.jump_prog (s : State) (a : PAddr) : (s.jump a).prog = s.prog := rfl
@[simp] theorem State.jump_stack (s : State) (a : PAddr) : (s.jump a).stack = s.stack := rfl
@[simp] theorem State.jump_stackPtr (s : State) (a : PAddr) : (s.jump a).stackPtr = s.stackPtr := rfl
@[simp] theorem State.jump_stackLive (s : State) (a : PAddr) : (s.jump a).stackLive = s.stackLive := rfl
@[simp] theorem State.jump_prescaler (s : State) (a : PAddr) : (s.jump a).prescaler = s.prescaler := rfl
@[simp] theorem State.jump_t0Inhibit (s : State) (a : PAddr) : (s.jump a).t0Inhibit = s.t0Inhibit := rfl
@[simp] theorem State.jump_wdt (s : State) (a : PAddr) : (s.jump a).wdt = if s.device.wdtEnabled then s.wdt + 2 else s.wdt := rfl
@[simp] theorem State.jump_sleeping (s : State) (a : PAddr) : (s.jump a).sleeping = s.sleeping := rfl
@[simp] theorem State.jump_peripheral (s : State) (a : PAddr) : (s.jump a).peripheral = s.peripheral := rfl
@[simp] theorem State.jump_cycles (s : State) (a : PAddr) : (s.jump a).cycles = s.cycles + 2 := rfl
@[simp] theorem State.jump_elapsed (s : State) (a : PAddr) : (s.jump a).elapsed = s.elapsed + 2 := rfl
@[simp] theorem State.jump_tick (s : State) (a : PAddr) : (s.jump a).tick = s.tick := rfl
@[simp] theorem State.jump_inputs (s : State) (a : PAddr) : (s.jump a).inputs = s.inputs := rfl
@[simp] theorem State.jump_device (s : State) (a : PAddr) : (s.jump a).device = s.device := rfl

/-! ## State.setStatusBit -/

@[simp] theorem State.setStatusBit_w (s : State) (n : Nat) (b : Bool) : (s.setStatusBit n b).w = s.w := rfl
@[simp] theorem State.setStatusBit_pc (s : State) (n : Nat) (b : Bool) : (s.setStatusBit n b).pc = s.pc := rfl
@[simp] theorem State.setStatusBit_status (s : State) (n : Nat) (b : Bool) : (s.setStatusBit n b).status = setBit s.status n b := rfl
@[simp] theorem State.setStatusBit_fsr (s : State) (n : Nat) (b : Bool) : (s.setStatusBit n b).fsr = s.fsr := rfl
@[simp] theorem State.setStatusBit_pclath (s : State) (n : Nat) (b : Bool) : (s.setStatusBit n b).pclath = s.pclath := rfl
@[simp] theorem State.setStatusBit_intcon (s : State) (n : Nat) (b : Bool) : (s.setStatusBit n b).intcon = s.intcon := rfl
@[simp] theorem State.setStatusBit_tmr0 (s : State) (n : Nat) (b : Bool) : (s.setStatusBit n b).tmr0 = s.tmr0 := rfl
@[simp] theorem State.setStatusBit_optionReg (s : State) (n : Nat) (b : Bool) : (s.setStatusBit n b).optionReg = s.optionReg := rfl
@[simp] theorem State.setStatusBit_portA (s : State) (n : Nat) (b : Bool) : (s.setStatusBit n b).portA = s.portA := rfl
@[simp] theorem State.setStatusBit_portB (s : State) (n : Nat) (b : Bool) : (s.setStatusBit n b).portB = s.portB := rfl
@[simp] theorem State.setStatusBit_portC (s : State) (n : Nat) (b : Bool) : (s.setStatusBit n b).portC = s.portC := rfl
@[simp] theorem State.setStatusBit_furtherPorts (s : State) (n : Nat) (b : Bool) : (s.setStatusBit n b).furtherPorts = s.furtherPorts := rfl
@[simp] theorem State.setStatusBit_mem (s : State) (n : Nat) (b : Bool) : (s.setStatusBit n b).mem = s.mem := rfl
@[simp] theorem State.setStatusBit_prog (s : State) (n : Nat) (b : Bool) : (s.setStatusBit n b).prog = s.prog := rfl
@[simp] theorem State.setStatusBit_stack (s : State) (n : Nat) (b : Bool) : (s.setStatusBit n b).stack = s.stack := rfl
@[simp] theorem State.setStatusBit_stackPtr (s : State) (n : Nat) (b : Bool) : (s.setStatusBit n b).stackPtr = s.stackPtr := rfl
@[simp] theorem State.setStatusBit_stackLive (s : State) (n : Nat) (b : Bool) : (s.setStatusBit n b).stackLive = s.stackLive := rfl
@[simp] theorem State.setStatusBit_prescaler (s : State) (n : Nat) (b : Bool) : (s.setStatusBit n b).prescaler = s.prescaler := rfl
@[simp] theorem State.setStatusBit_t0Inhibit (s : State) (n : Nat) (b : Bool) : (s.setStatusBit n b).t0Inhibit = s.t0Inhibit := rfl
@[simp] theorem State.setStatusBit_wdt (s : State) (n : Nat) (b : Bool) : (s.setStatusBit n b).wdt = s.wdt := rfl
@[simp] theorem State.setStatusBit_sleeping (s : State) (n : Nat) (b : Bool) : (s.setStatusBit n b).sleeping = s.sleeping := rfl
@[simp] theorem State.setStatusBit_peripheral (s : State) (n : Nat) (b : Bool) : (s.setStatusBit n b).peripheral = s.peripheral := rfl
@[simp] theorem State.setStatusBit_cycles (s : State) (n : Nat) (b : Bool) : (s.setStatusBit n b).cycles = s.cycles := rfl
@[simp] theorem State.setStatusBit_elapsed (s : State) (n : Nat) (b : Bool) : (s.setStatusBit n b).elapsed = s.elapsed := rfl
@[simp] theorem State.setStatusBit_tick (s : State) (n : Nat) (b : Bool) : (s.setStatusBit n b).tick = s.tick := rfl
@[simp] theorem State.setStatusBit_inputs (s : State) (n : Nat) (b : Bool) : (s.setStatusBit n b).inputs = s.inputs := rfl
@[simp] theorem State.setStatusBit_device (s : State) (n : Nat) (b : Bool) : (s.setStatusBit n b).device = s.device := rfl

/-! ## State.setZ -/

@[simp] theorem State.setZ_w (s : State) (r : Byte) : (s.setZ r).w = s.w := rfl
@[simp] theorem State.setZ_pc (s : State) (r : Byte) : (s.setZ r).pc = s.pc := rfl
@[simp] theorem State.setZ_status (s : State) (r : Byte) : (s.setZ r).status = setBit s.status bitZ (r == 0x00#8) := rfl
@[simp] theorem State.setZ_fsr (s : State) (r : Byte) : (s.setZ r).fsr = s.fsr := rfl
@[simp] theorem State.setZ_pclath (s : State) (r : Byte) : (s.setZ r).pclath = s.pclath := rfl
@[simp] theorem State.setZ_intcon (s : State) (r : Byte) : (s.setZ r).intcon = s.intcon := rfl
@[simp] theorem State.setZ_tmr0 (s : State) (r : Byte) : (s.setZ r).tmr0 = s.tmr0 := rfl
@[simp] theorem State.setZ_optionReg (s : State) (r : Byte) : (s.setZ r).optionReg = s.optionReg := rfl
@[simp] theorem State.setZ_portA (s : State) (r : Byte) : (s.setZ r).portA = s.portA := rfl
@[simp] theorem State.setZ_portB (s : State) (r : Byte) : (s.setZ r).portB = s.portB := rfl
@[simp] theorem State.setZ_portC (s : State) (r : Byte) : (s.setZ r).portC = s.portC := rfl
@[simp] theorem State.setZ_furtherPorts (s : State) (r : Byte) : (s.setZ r).furtherPorts = s.furtherPorts := rfl
@[simp] theorem State.setZ_mem (s : State) (r : Byte) : (s.setZ r).mem = s.mem := rfl
@[simp] theorem State.setZ_prog (s : State) (r : Byte) : (s.setZ r).prog = s.prog := rfl
@[simp] theorem State.setZ_stack (s : State) (r : Byte) : (s.setZ r).stack = s.stack := rfl
@[simp] theorem State.setZ_stackPtr (s : State) (r : Byte) : (s.setZ r).stackPtr = s.stackPtr := rfl
@[simp] theorem State.setZ_stackLive (s : State) (r : Byte) : (s.setZ r).stackLive = s.stackLive := rfl
@[simp] theorem State.setZ_prescaler (s : State) (r : Byte) : (s.setZ r).prescaler = s.prescaler := rfl
@[simp] theorem State.setZ_t0Inhibit (s : State) (r : Byte) : (s.setZ r).t0Inhibit = s.t0Inhibit := rfl
@[simp] theorem State.setZ_wdt (s : State) (r : Byte) : (s.setZ r).wdt = s.wdt := rfl
@[simp] theorem State.setZ_sleeping (s : State) (r : Byte) : (s.setZ r).sleeping = s.sleeping := rfl
@[simp] theorem State.setZ_peripheral (s : State) (r : Byte) : (s.setZ r).peripheral = s.peripheral := rfl
@[simp] theorem State.setZ_cycles (s : State) (r : Byte) : (s.setZ r).cycles = s.cycles := rfl
@[simp] theorem State.setZ_elapsed (s : State) (r : Byte) : (s.setZ r).elapsed = s.elapsed := rfl
@[simp] theorem State.setZ_tick (s : State) (r : Byte) : (s.setZ r).tick = s.tick := rfl
@[simp] theorem State.setZ_inputs (s : State) (r : Byte) : (s.setZ r).inputs = s.inputs := rfl
@[simp] theorem State.setZ_device (s : State) (r : Byte) : (s.setZ r).device = s.device := rfl

/-! ## State.setC -/

@[simp] theorem State.setC_w (s : State) (c : Bool) : (s.setC c).w = s.w := rfl
@[simp] theorem State.setC_pc (s : State) (c : Bool) : (s.setC c).pc = s.pc := rfl
@[simp] theorem State.setC_status (s : State) (c : Bool) : (s.setC c).status = setBit s.status bitC c := rfl
@[simp] theorem State.setC_fsr (s : State) (c : Bool) : (s.setC c).fsr = s.fsr := rfl
@[simp] theorem State.setC_pclath (s : State) (c : Bool) : (s.setC c).pclath = s.pclath := rfl
@[simp] theorem State.setC_intcon (s : State) (c : Bool) : (s.setC c).intcon = s.intcon := rfl
@[simp] theorem State.setC_tmr0 (s : State) (c : Bool) : (s.setC c).tmr0 = s.tmr0 := rfl
@[simp] theorem State.setC_optionReg (s : State) (c : Bool) : (s.setC c).optionReg = s.optionReg := rfl
@[simp] theorem State.setC_portA (s : State) (c : Bool) : (s.setC c).portA = s.portA := rfl
@[simp] theorem State.setC_portB (s : State) (c : Bool) : (s.setC c).portB = s.portB := rfl
@[simp] theorem State.setC_portC (s : State) (c : Bool) : (s.setC c).portC = s.portC := rfl
@[simp] theorem State.setC_furtherPorts (s : State) (c : Bool) : (s.setC c).furtherPorts = s.furtherPorts := rfl
@[simp] theorem State.setC_mem (s : State) (c : Bool) : (s.setC c).mem = s.mem := rfl
@[simp] theorem State.setC_prog (s : State) (c : Bool) : (s.setC c).prog = s.prog := rfl
@[simp] theorem State.setC_stack (s : State) (c : Bool) : (s.setC c).stack = s.stack := rfl
@[simp] theorem State.setC_stackPtr (s : State) (c : Bool) : (s.setC c).stackPtr = s.stackPtr := rfl
@[simp] theorem State.setC_stackLive (s : State) (c : Bool) : (s.setC c).stackLive = s.stackLive := rfl
@[simp] theorem State.setC_prescaler (s : State) (c : Bool) : (s.setC c).prescaler = s.prescaler := rfl
@[simp] theorem State.setC_t0Inhibit (s : State) (c : Bool) : (s.setC c).t0Inhibit = s.t0Inhibit := rfl
@[simp] theorem State.setC_wdt (s : State) (c : Bool) : (s.setC c).wdt = s.wdt := rfl
@[simp] theorem State.setC_sleeping (s : State) (c : Bool) : (s.setC c).sleeping = s.sleeping := rfl
@[simp] theorem State.setC_peripheral (s : State) (c : Bool) : (s.setC c).peripheral = s.peripheral := rfl
@[simp] theorem State.setC_cycles (s : State) (c : Bool) : (s.setC c).cycles = s.cycles := rfl
@[simp] theorem State.setC_elapsed (s : State) (c : Bool) : (s.setC c).elapsed = s.elapsed := rfl
@[simp] theorem State.setC_tick (s : State) (c : Bool) : (s.setC c).tick = s.tick := rfl
@[simp] theorem State.setC_inputs (s : State) (c : Bool) : (s.setC c).inputs = s.inputs := rfl
@[simp] theorem State.setC_device (s : State) (c : Bool) : (s.setC c).device = s.device := rfl

/-! ## State.setSumFlags -/

@[simp] theorem State.setSumFlags_w (s : State) (r : Sum) : (s.setSumFlags r).w = s.w := rfl
@[simp] theorem State.setSumFlags_pc (s : State) (r : Sum) : (s.setSumFlags r).pc = s.pc := rfl
@[simp] theorem State.setSumFlags_status (s : State) (r : Sum) : (s.setSumFlags r).status = setBit (setBit (setBit s.status bitC r.c) bitDC r.dc) bitZ (r.value == 0x00#8) := rfl
@[simp] theorem State.setSumFlags_fsr (s : State) (r : Sum) : (s.setSumFlags r).fsr = s.fsr := rfl
@[simp] theorem State.setSumFlags_pclath (s : State) (r : Sum) : (s.setSumFlags r).pclath = s.pclath := rfl
@[simp] theorem State.setSumFlags_intcon (s : State) (r : Sum) : (s.setSumFlags r).intcon = s.intcon := rfl
@[simp] theorem State.setSumFlags_tmr0 (s : State) (r : Sum) : (s.setSumFlags r).tmr0 = s.tmr0 := rfl
@[simp] theorem State.setSumFlags_optionReg (s : State) (r : Sum) : (s.setSumFlags r).optionReg = s.optionReg := rfl
@[simp] theorem State.setSumFlags_portA (s : State) (r : Sum) : (s.setSumFlags r).portA = s.portA := rfl
@[simp] theorem State.setSumFlags_portB (s : State) (r : Sum) : (s.setSumFlags r).portB = s.portB := rfl
@[simp] theorem State.setSumFlags_portC (s : State) (r : Sum) : (s.setSumFlags r).portC = s.portC := rfl
@[simp] theorem State.setSumFlags_furtherPorts (s : State) (r : Sum) : (s.setSumFlags r).furtherPorts = s.furtherPorts := rfl
@[simp] theorem State.setSumFlags_mem (s : State) (r : Sum) : (s.setSumFlags r).mem = s.mem := rfl
@[simp] theorem State.setSumFlags_prog (s : State) (r : Sum) : (s.setSumFlags r).prog = s.prog := rfl
@[simp] theorem State.setSumFlags_stack (s : State) (r : Sum) : (s.setSumFlags r).stack = s.stack := rfl
@[simp] theorem State.setSumFlags_stackPtr (s : State) (r : Sum) : (s.setSumFlags r).stackPtr = s.stackPtr := rfl
@[simp] theorem State.setSumFlags_stackLive (s : State) (r : Sum) : (s.setSumFlags r).stackLive = s.stackLive := rfl
@[simp] theorem State.setSumFlags_prescaler (s : State) (r : Sum) : (s.setSumFlags r).prescaler = s.prescaler := rfl
@[simp] theorem State.setSumFlags_t0Inhibit (s : State) (r : Sum) : (s.setSumFlags r).t0Inhibit = s.t0Inhibit := rfl
@[simp] theorem State.setSumFlags_wdt (s : State) (r : Sum) : (s.setSumFlags r).wdt = s.wdt := rfl
@[simp] theorem State.setSumFlags_sleeping (s : State) (r : Sum) : (s.setSumFlags r).sleeping = s.sleeping := rfl
@[simp] theorem State.setSumFlags_peripheral (s : State) (r : Sum) : (s.setSumFlags r).peripheral = s.peripheral := rfl
@[simp] theorem State.setSumFlags_cycles (s : State) (r : Sum) : (s.setSumFlags r).cycles = s.cycles := rfl
@[simp] theorem State.setSumFlags_elapsed (s : State) (r : Sum) : (s.setSumFlags r).elapsed = s.elapsed := rfl
@[simp] theorem State.setSumFlags_tick (s : State) (r : Sum) : (s.setSumFlags r).tick = s.tick := rfl
@[simp] theorem State.setSumFlags_inputs (s : State) (r : Sum) : (s.setSumFlags r).inputs = s.inputs := rfl
@[simp] theorem State.setSumFlags_device (s : State) (r : Sum) : (s.setSumFlags r).device = s.device := rfl

/-! ## State.setToPd -/

@[simp] theorem State.setToPd_w (s : State) (x y : Bool) : (s.setToPd x y).w = s.w := rfl
@[simp] theorem State.setToPd_pc (s : State) (x y : Bool) : (s.setToPd x y).pc = s.pc := rfl
@[simp] theorem State.setToPd_status (s : State) (x y : Bool) : (s.setToPd x y).status = setBit (setBit s.status bitTO x) bitPD y := rfl
@[simp] theorem State.setToPd_fsr (s : State) (x y : Bool) : (s.setToPd x y).fsr = s.fsr := rfl
@[simp] theorem State.setToPd_pclath (s : State) (x y : Bool) : (s.setToPd x y).pclath = s.pclath := rfl
@[simp] theorem State.setToPd_intcon (s : State) (x y : Bool) : (s.setToPd x y).intcon = s.intcon := rfl
@[simp] theorem State.setToPd_tmr0 (s : State) (x y : Bool) : (s.setToPd x y).tmr0 = s.tmr0 := rfl
@[simp] theorem State.setToPd_optionReg (s : State) (x y : Bool) : (s.setToPd x y).optionReg = s.optionReg := rfl
@[simp] theorem State.setToPd_portA (s : State) (x y : Bool) : (s.setToPd x y).portA = s.portA := rfl
@[simp] theorem State.setToPd_portB (s : State) (x y : Bool) : (s.setToPd x y).portB = s.portB := rfl
@[simp] theorem State.setToPd_portC (s : State) (x y : Bool) : (s.setToPd x y).portC = s.portC := rfl
@[simp] theorem State.setToPd_furtherPorts (s : State) (x y : Bool) : (s.setToPd x y).furtherPorts = s.furtherPorts := rfl
@[simp] theorem State.setToPd_mem (s : State) (x y : Bool) : (s.setToPd x y).mem = s.mem := rfl
@[simp] theorem State.setToPd_prog (s : State) (x y : Bool) : (s.setToPd x y).prog = s.prog := rfl
@[simp] theorem State.setToPd_stack (s : State) (x y : Bool) : (s.setToPd x y).stack = s.stack := rfl
@[simp] theorem State.setToPd_stackPtr (s : State) (x y : Bool) : (s.setToPd x y).stackPtr = s.stackPtr := rfl
@[simp] theorem State.setToPd_stackLive (s : State) (x y : Bool) : (s.setToPd x y).stackLive = s.stackLive := rfl
@[simp] theorem State.setToPd_prescaler (s : State) (x y : Bool) : (s.setToPd x y).prescaler = s.prescaler := rfl
@[simp] theorem State.setToPd_t0Inhibit (s : State) (x y : Bool) : (s.setToPd x y).t0Inhibit = s.t0Inhibit := rfl
@[simp] theorem State.setToPd_wdt (s : State) (x y : Bool) : (s.setToPd x y).wdt = s.wdt := rfl
@[simp] theorem State.setToPd_sleeping (s : State) (x y : Bool) : (s.setToPd x y).sleeping = s.sleeping := rfl
@[simp] theorem State.setToPd_peripheral (s : State) (x y : Bool) : (s.setToPd x y).peripheral = s.peripheral := rfl
@[simp] theorem State.setToPd_cycles (s : State) (x y : Bool) : (s.setToPd x y).cycles = s.cycles := rfl
@[simp] theorem State.setToPd_elapsed (s : State) (x y : Bool) : (s.setToPd x y).elapsed = s.elapsed := rfl
@[simp] theorem State.setToPd_tick (s : State) (x y : Bool) : (s.setToPd x y).tick = s.tick := rfl
@[simp] theorem State.setToPd_inputs (s : State) (x y : Bool) : (s.setToPd x y).inputs = s.inputs := rfl
@[simp] theorem State.setToPd_device (s : State) (x y : Bool) : (s.setToPd x y).device = s.device := rfl

/-! ## State.loadW -/

@[simp] theorem State.loadW_w (s : State) (v : Byte) : (s.loadW v).w = v := rfl
@[simp] theorem State.loadW_pc (s : State) (v : Byte) : (s.loadW v).pc = s.pc + 1#13 := rfl
@[simp] theorem State.loadW_status (s : State) (v : Byte) : (s.loadW v).status = s.status := rfl
@[simp] theorem State.loadW_fsr (s : State) (v : Byte) : (s.loadW v).fsr = s.fsr := rfl
@[simp] theorem State.loadW_pclath (s : State) (v : Byte) : (s.loadW v).pclath = s.pclath := rfl
@[simp] theorem State.loadW_intcon (s : State) (v : Byte) : (s.loadW v).intcon = s.intcon := rfl
@[simp] theorem State.loadW_tmr0 (s : State) (v : Byte) : (s.loadW v).tmr0 = s.tmr0 := rfl
@[simp] theorem State.loadW_optionReg (s : State) (v : Byte) : (s.loadW v).optionReg = s.optionReg := rfl
@[simp] theorem State.loadW_portA (s : State) (v : Byte) : (s.loadW v).portA = s.portA := rfl
@[simp] theorem State.loadW_portB (s : State) (v : Byte) : (s.loadW v).portB = s.portB := rfl
@[simp] theorem State.loadW_portC (s : State) (v : Byte) : (s.loadW v).portC = s.portC := rfl
@[simp] theorem State.loadW_furtherPorts (s : State) (v : Byte) : (s.loadW v).furtherPorts = s.furtherPorts := rfl
@[simp] theorem State.loadW_mem (s : State) (v : Byte) : (s.loadW v).mem = s.mem := rfl
@[simp] theorem State.loadW_prog (s : State) (v : Byte) : (s.loadW v).prog = s.prog := rfl
@[simp] theorem State.loadW_stack (s : State) (v : Byte) : (s.loadW v).stack = s.stack := rfl
@[simp] theorem State.loadW_stackPtr (s : State) (v : Byte) : (s.loadW v).stackPtr = s.stackPtr := rfl
@[simp] theorem State.loadW_stackLive (s : State) (v : Byte) : (s.loadW v).stackLive = s.stackLive := rfl
@[simp] theorem State.loadW_prescaler (s : State) (v : Byte) : (s.loadW v).prescaler = s.prescaler := rfl
@[simp] theorem State.loadW_t0Inhibit (s : State) (v : Byte) : (s.loadW v).t0Inhibit = s.t0Inhibit := rfl
@[simp] theorem State.loadW_wdt (s : State) (v : Byte) : (s.loadW v).wdt = if s.device.wdtEnabled then s.wdt + 1 else s.wdt := rfl
@[simp] theorem State.loadW_sleeping (s : State) (v : Byte) : (s.loadW v).sleeping = s.sleeping := rfl
@[simp] theorem State.loadW_peripheral (s : State) (v : Byte) : (s.loadW v).peripheral = s.peripheral := rfl
@[simp] theorem State.loadW_cycles (s : State) (v : Byte) : (s.loadW v).cycles = s.cycles + 1 := rfl
@[simp] theorem State.loadW_elapsed (s : State) (v : Byte) : (s.loadW v).elapsed = s.elapsed + 1 := rfl
@[simp] theorem State.loadW_tick (s : State) (v : Byte) : (s.loadW v).tick = s.tick := rfl
@[simp] theorem State.loadW_inputs (s : State) (v : Byte) : (s.loadW v).inputs = s.inputs := rfl
@[simp] theorem State.loadW_device (s : State) (v : Byte) : (s.loadW v).device = s.device := rfl

/-! ## Ports: a write to one port changes nothing else -/

@[simp] theorem State.setPort_w (s : State) (p : PortId) (x : Port) : (s.setPort p x).w = s.w := by
  cases p <;> rfl
@[simp] theorem State.setPort_pc (s : State) (p : PortId) (x : Port) : (s.setPort p x).pc = s.pc := by
  cases p <;> rfl
@[simp] theorem State.setPort_status (s : State) (p : PortId) (x : Port) : (s.setPort p x).status = s.status := by
  cases p <;> rfl
@[simp] theorem State.setPort_fsr (s : State) (p : PortId) (x : Port) : (s.setPort p x).fsr = s.fsr := by
  cases p <;> rfl
@[simp] theorem State.setPort_pclath (s : State) (p : PortId) (x : Port) : (s.setPort p x).pclath = s.pclath := by
  cases p <;> rfl
@[simp] theorem State.setPort_intcon (s : State) (p : PortId) (x : Port) : (s.setPort p x).intcon = s.intcon := by
  cases p <;> rfl
@[simp] theorem State.setPort_tmr0 (s : State) (p : PortId) (x : Port) : (s.setPort p x).tmr0 = s.tmr0 := by
  cases p <;> rfl
@[simp] theorem State.setPort_optionReg (s : State) (p : PortId) (x : Port) : (s.setPort p x).optionReg = s.optionReg := by
  cases p <;> rfl
@[simp] theorem State.setPort_portA (s : State) (p : PortId) (x : Port) :
    (s.setPort p x).portA = if p = .a then x else s.portA := by cases p <;> rfl
@[simp] theorem State.setPort_portB (s : State) (p : PortId) (x : Port) :
    (s.setPort p x).portB = if p = .b then x else s.portB := by cases p <;> rfl
@[simp] theorem State.setPort_portC (s : State) (p : PortId) (x : Port) :
    (s.setPort p x).portC = if p = .c then x else s.portC := by cases p <;> rfl
@[simp] theorem State.setPort_mem (s : State) (p : PortId) (x : Port) : (s.setPort p x).mem = s.mem := by
  cases p <;> rfl
@[simp] theorem State.setPort_prog (s : State) (p : PortId) (x : Port) : (s.setPort p x).prog = s.prog := by
  cases p <;> rfl
@[simp] theorem State.setPort_stack (s : State) (p : PortId) (x : Port) : (s.setPort p x).stack = s.stack := by
  cases p <;> rfl
@[simp] theorem State.setPort_stackPtr (s : State) (p : PortId) (x : Port) : (s.setPort p x).stackPtr = s.stackPtr := by
  cases p <;> rfl
@[simp] theorem State.setPort_stackLive (s : State) (p : PortId) (x : Port) : (s.setPort p x).stackLive = s.stackLive := by
  cases p <;> rfl
@[simp] theorem State.setPort_prescaler (s : State) (p : PortId) (x : Port) : (s.setPort p x).prescaler = s.prescaler := by
  cases p <;> rfl
@[simp] theorem State.setPort_t0Inhibit (s : State) (p : PortId) (x : Port) : (s.setPort p x).t0Inhibit = s.t0Inhibit := by
  cases p <;> rfl
@[simp] theorem State.setPort_wdt (s : State) (p : PortId) (x : Port) : (s.setPort p x).wdt = s.wdt := by
  cases p <;> rfl
@[simp] theorem State.setPort_sleeping (s : State) (p : PortId) (x : Port) : (s.setPort p x).sleeping = s.sleeping := by
  cases p <;> rfl
@[simp] theorem State.setPort_peripheral (s : State) (p : PortId) (x : Port) : (s.setPort p x).peripheral = s.peripheral := by
  cases p <;> rfl
@[simp] theorem State.setPort_cycles (s : State) (p : PortId) (x : Port) : (s.setPort p x).cycles = s.cycles := by
  cases p <;> rfl
@[simp] theorem State.setPort_elapsed (s : State) (p : PortId) (x : Port) : (s.setPort p x).elapsed = s.elapsed := by
  cases p <;> rfl
@[simp] theorem State.setPort_tick (s : State) (p : PortId) (x : Port) : (s.setPort p x).tick = s.tick := by
  cases p <;> rfl
@[simp] theorem State.setPort_inputs (s : State) (p : PortId) (x : Port) : (s.setPort p x).inputs = s.inputs := by
  cases p <;> rfl
@[simp] theorem State.setPort_device (s : State) (p : PortId) (x : Port) : (s.setPort p x).device = s.device := by
  cases p <;> rfl

@[simp] theorem State.port_setPort (s : State) (p q : PortId) (x : Port) :
    (s.setPort p x).port q = if q = p then x else s.port q := by
  cases p <;> cases q <;> try rfl
  rename_i n m
  by_cases h : m = n
  · subst h; simp [State.setPort, State.port]
  · simp [State.setPort, State.port, h, cellRead_write_other _ _ h]

end Sys2Proof.Machine
end

