-- ==== Sys2Proof/Laws/Operands.lean ====
section
/-! SUPPORT. What a data write can change: one lemma for `writeAt`, and the fields it never touches. -/

namespace Sys2Proof.Machine

/-- Everything a data write at a location can do (rule R65). -/
theorem writeAt_cases (s : State) (a : DAddr) (v : Byte) :
    writeAt s a v = s
    ∨ ((Device.kindAt s.device a = .general ∨ ∃ b, Device.kindAt s.device a = .mirror b)
        ∧ writeAt s a v = { s with mem := Memory.write s.mem a v })
    ∨ (Device.kindAt s.device a = .tmr0 ∧ writeAt s a v = writeTmr0 s v)
    ∨ (Device.kindAt s.device a = .status
        ∧ writeAt s a v = { s with status := mergeMask s.device.statusWriteMask v s.status })
    ∨ (Device.kindAt s.device a = .fsr ∧ writeAt s a v = { s with fsr := v })
    ∨ (Device.kindAt s.device a = .pclath ∧ writeAt s a v = { s with pclath := v &&& s.device.pclathMask })
    ∨ (Device.kindAt s.device a = .intcon ∧ writeAt s a v = { s with intcon := v })
    ∨ (Device.kindAt s.device a = .optionReg ∧ writeAt s a v = { s with optionReg := v })
    ∨ (∃ p, Device.kindAt s.device a = .tris p ∧ writeAt s a v = s.setTris p v)
    ∨ (∃ p, Device.kindAt s.device a = .port p ∧ writeAt s a v = s.setLatch p v) := by
  unfold writeAt
  cases h : Device.kindAt s.device a <;> simp

/-- Everything a file-register write can do: nothing, or a data write at the location `f` names (rule R65). -/
theorem regWrite_cases (s : State) (f : BitVec 7) (v : Byte) :
    (fileTarget s f = none ∧ regWrite s f v = s) ∨ ∃ a, fileTarget s f = some a ∧ regWrite s f v = writeAt s a v := by
  unfold regWrite
  cases h : fileTarget s f <;> simp

@[simp] theorem writeAt_w (s : State) (a : DAddr) (v : Byte) : (writeAt s a v).w = s.w := by
  unfold writeAt
  split <;> simp [writeTmr0, State.setTris, State.setLatch]

@[simp] theorem regWrite_w (s : State) (f : BitVec 7) (v : Byte) : (regWrite s f v).w = s.w := by
  unfold regWrite
  split <;> simp

@[simp] theorem writeAt_pc (s : State) (a : DAddr) (v : Byte) : (writeAt s a v).pc = s.pc := by
  unfold writeAt
  split <;> simp [writeTmr0, State.setTris, State.setLatch]

@[simp] theorem regWrite_pc (s : State) (f : BitVec 7) (v : Byte) : (regWrite s f v).pc = s.pc := by
  unfold regWrite
  split <;> simp

@[simp] theorem writeAt_prog (s : State) (a : DAddr) (v : Byte) : (writeAt s a v).prog = s.prog := by
  unfold writeAt
  split <;> simp [writeTmr0, State.setTris, State.setLatch]

@[simp] theorem regWrite_prog (s : State) (f : BitVec 7) (v : Byte) : (regWrite s f v).prog = s.prog := by
  unfold regWrite
  split <;> simp

@[simp] theorem writeAt_stack (s : State) (a : DAddr) (v : Byte) : (writeAt s a v).stack = s.stack := by
  unfold writeAt
  split <;> simp [writeTmr0, State.setTris, State.setLatch]

@[simp] theorem regWrite_stack (s : State) (f : BitVec 7) (v : Byte) : (regWrite s f v).stack = s.stack := by
  unfold regWrite
  split <;> simp

@[simp] theorem writeAt_stackPtr (s : State) (a : DAddr) (v : Byte) : (writeAt s a v).stackPtr = s.stackPtr := by
  unfold writeAt
  split <;> simp [writeTmr0, State.setTris, State.setLatch]

@[simp] theorem regWrite_stackPtr (s : State) (f : BitVec 7) (v : Byte) : (regWrite s f v).stackPtr = s.stackPtr := by
  unfold regWrite
  split <;> simp

@[simp] theorem writeAt_stackLive (s : State) (a : DAddr) (v : Byte) : (writeAt s a v).stackLive = s.stackLive := by
  unfold writeAt
  split <;> simp [writeTmr0, State.setTris, State.setLatch]

@[simp] theorem regWrite_stackLive (s : State) (f : BitVec 7) (v : Byte) : (regWrite s f v).stackLive = s.stackLive := by
  unfold regWrite
  split <;> simp

@[simp] theorem writeAt_wdt (s : State) (a : DAddr) (v : Byte) : (writeAt s a v).wdt = s.wdt := by
  unfold writeAt
  split <;> simp [writeTmr0, State.setTris, State.setLatch]

@[simp] theorem regWrite_wdt (s : State) (f : BitVec 7) (v : Byte) : (regWrite s f v).wdt = s.wdt := by
  unfold regWrite
  split <;> simp

@[simp] theorem writeAt_sleeping (s : State) (a : DAddr) (v : Byte) : (writeAt s a v).sleeping = s.sleeping := by
  unfold writeAt
  split <;> simp [writeTmr0, State.setTris, State.setLatch]

@[simp] theorem regWrite_sleeping (s : State) (f : BitVec 7) (v : Byte) : (regWrite s f v).sleeping = s.sleeping := by
  unfold regWrite
  split <;> simp

@[simp] theorem writeAt_peripheral (s : State) (a : DAddr) (v : Byte) : (writeAt s a v).peripheral = s.peripheral := by
  unfold writeAt
  split <;> simp [writeTmr0, State.setTris, State.setLatch]

@[simp] theorem regWrite_peripheral (s : State) (f : BitVec 7) (v : Byte) : (regWrite s f v).peripheral = s.peripheral := by
  unfold regWrite
  split <;> simp

@[simp] theorem writeAt_cycles (s : State) (a : DAddr) (v : Byte) : (writeAt s a v).cycles = s.cycles := by
  unfold writeAt
  split <;> simp [writeTmr0, State.setTris, State.setLatch]

@[simp] theorem regWrite_cycles (s : State) (f : BitVec 7) (v : Byte) : (regWrite s f v).cycles = s.cycles := by
  unfold regWrite
  split <;> simp

@[simp] theorem writeAt_elapsed (s : State) (a : DAddr) (v : Byte) : (writeAt s a v).elapsed = s.elapsed := by
  unfold writeAt
  split <;> simp [writeTmr0, State.setTris, State.setLatch]

@[simp] theorem regWrite_elapsed (s : State) (f : BitVec 7) (v : Byte) : (regWrite s f v).elapsed = s.elapsed := by
  unfold regWrite
  split <;> simp

@[simp] theorem writeAt_tick (s : State) (a : DAddr) (v : Byte) : (writeAt s a v).tick = s.tick := by
  unfold writeAt
  split <;> simp [writeTmr0, State.setTris, State.setLatch]

@[simp] theorem regWrite_tick (s : State) (f : BitVec 7) (v : Byte) : (regWrite s f v).tick = s.tick := by
  unfold regWrite
  split <;> simp

@[simp] theorem writeAt_inputs (s : State) (a : DAddr) (v : Byte) : (writeAt s a v).inputs = s.inputs := by
  unfold writeAt
  split <;> simp [writeTmr0, State.setTris, State.setLatch]

@[simp] theorem regWrite_inputs (s : State) (f : BitVec 7) (v : Byte) : (regWrite s f v).inputs = s.inputs := by
  unfold regWrite
  split <;> simp

@[simp] theorem writeAt_device (s : State) (a : DAddr) (v : Byte) : (writeAt s a v).device = s.device := by
  unfold writeAt
  split <;> simp [writeTmr0, State.setTris, State.setLatch]

@[simp] theorem regWrite_device (s : State) (f : BitVec 7) (v : Byte) : (regWrite s f v).device = s.device := by
  unfold regWrite
  split <;> simp

/-- What goes on after a file-register write: by the jump of a PCL write or sequentially (rule R25). -/
theorem finishFile_cases (s : State) (f : BitVec 7) (v : Byte) :
    (namesPcl s f = true ∧ finishFile s f v = s.jump (pclTarget s v))
    ∨ (namesPcl s f = false ∧ finishFile s f v = (regWrite s f v).next) := by
  unfold finishFile
  cases h : namesPcl s f <;> simp

end Sys2Proof.Machine
end

