-- ==== Sys2Proof/Laws/Frames.lean ====
section
/-! SUPPORT. What the endings of an instruction (sequential, skip, jump, push, pop) leave alone, field by field. -/

namespace Sys2Proof.Machine

/-! ## The file-register destination -/

@[simp] theorem finishFile_w (s : State) (f : BitVec 7) (v : Byte) : (finishFile s f v).w = s.w := by
  unfold finishFile; split <;> simp

@[simp] theorem finishFile_prog (s : State) (f : BitVec 7) (v : Byte) : (finishFile s f v).prog = s.prog := by
  unfold finishFile; split <;> simp

@[simp] theorem finishFile_stack (s : State) (f : BitVec 7) (v : Byte) : (finishFile s f v).stack = s.stack := by
  unfold finishFile; split <;> simp

@[simp] theorem finishFile_stackPtr (s : State) (f : BitVec 7) (v : Byte) : (finishFile s f v).stackPtr = s.stackPtr := by
  unfold finishFile; split <;> simp

@[simp] theorem finishFile_stackLive (s : State) (f : BitVec 7) (v : Byte) : (finishFile s f v).stackLive = s.stackLive := by
  unfold finishFile; split <;> simp

@[simp] theorem finishFile_sleeping (s : State) (f : BitVec 7) (v : Byte) : (finishFile s f v).sleeping = s.sleeping := by
  unfold finishFile; split <;> simp

@[simp] theorem finishFile_peripheral (s : State) (f : BitVec 7) (v : Byte) : (finishFile s f v).peripheral = s.peripheral := by
  unfold finishFile; split <;> simp

@[simp] theorem finishFile_tick (s : State) (f : BitVec 7) (v : Byte) : (finishFile s f v).tick = s.tick := by
  unfold finishFile; split <;> simp

@[simp] theorem finishFile_inputs (s : State) (f : BitVec 7) (v : Byte) : (finishFile s f v).inputs = s.inputs := by
  unfold finishFile; split <;> simp

@[simp] theorem finishFile_device (s : State) (f : BitVec 7) (v : Byte) : (finishFile s f v).device = s.device := by
  unfold finishFile; split <;> simp

@[simp] theorem finishDest_prog (s : State) (f : BitVec 7) (d : Dest) (v : Byte) : (finishDest s f d v).prog = s.prog := by
  cases d <;> simp [finishDest]

@[simp] theorem finishDest_stack (s : State) (f : BitVec 7) (d : Dest) (v : Byte) : (finishDest s f d v).stack = s.stack := by
  cases d <;> simp [finishDest]

@[simp] theorem finishDest_stackPtr (s : State) (f : BitVec 7) (d : Dest) (v : Byte) : (finishDest s f d v).stackPtr = s.stackPtr := by
  cases d <;> simp [finishDest]

@[simp] theorem finishDest_stackLive (s : State) (f : BitVec 7) (d : Dest) (v : Byte) : (finishDest s f d v).stackLive = s.stackLive := by
  cases d <;> simp [finishDest]

@[simp] theorem finishDest_sleeping (s : State) (f : BitVec 7) (d : Dest) (v : Byte) : (finishDest s f d v).sleeping = s.sleeping := by
  cases d <;> simp [finishDest]

@[simp] theorem finishDest_peripheral (s : State) (f : BitVec 7) (d : Dest) (v : Byte) : (finishDest s f d v).peripheral = s.peripheral := by
  cases d <;> simp [finishDest]

@[simp] theorem finishDest_tick (s : State) (f : BitVec 7) (d : Dest) (v : Byte) : (finishDest s f d v).tick = s.tick := by
  cases d <;> simp [finishDest]

@[simp] theorem finishDest_inputs (s : State) (f : BitVec 7) (d : Dest) (v : Byte) : (finishDest s f d v).inputs = s.inputs := by
  cases d <;> simp [finishDest]

@[simp] theorem finishDest_device (s : State) (f : BitVec 7) (d : Dest) (v : Byte) : (finishDest s f d v).device = s.device := by
  cases d <;> simp [finishDest]

@[simp] theorem finishDest_w (s : State) (f : BitVec 7) (d : Dest) (v : Byte) :
    (finishDest s f d v).w = if d = .w then v else s.w := by
  cases d <;> simp [finishDest]

/-! ## Skips -/

@[simp] theorem skipIf_w (s : State) (b : Bool) : (skipIf s b).w = s.w := by cases b <;> rfl
@[simp] theorem skipIf_status (s : State) (b : Bool) : (skipIf s b).status = s.status := by cases b <;> rfl

@[simp] theorem skipIf_fsr (s : State) (b : Bool) : (skipIf s b).fsr = s.fsr := by cases b <;> rfl
@[simp] theorem skipIf_pclath (s : State) (b : Bool) : (skipIf s b).pclath = s.pclath := by cases b <;> rfl

@[simp] theorem skipIf_intcon (s : State) (b : Bool) : (skipIf s b).intcon = s.intcon := by cases b <;> rfl
@[simp] theorem skipIf_tmr0 (s : State) (b : Bool) : (skipIf s b).tmr0 = s.tmr0 := by cases b <;> rfl

@[simp] theorem skipIf_optionReg (s : State) (b : Bool) : (skipIf s b).optionReg = s.optionReg := by cases b <;> rfl
@[simp] theorem skipIf_portA (s : State) (b : Bool) : (skipIf s b).portA = s.portA := by cases b <;> rfl

@[simp] theorem skipIf_portB (s : State) (b : Bool) : (skipIf s b).portB = s.portB := by cases b <;> rfl
@[simp] theorem skipIf_portC (s : State) (b : Bool) : (skipIf s b).portC = s.portC := by cases b <;> rfl
@[simp] theorem skipIf_furtherPorts (s : State) (b : Bool) : (skipIf s b).furtherPorts = s.furtherPorts := by cases b <;> rfl

@[simp] theorem skipIf_mem (s : State) (b : Bool) : (skipIf s b).mem = s.mem := by cases b <;> rfl
@[simp] theorem skipIf_prog (s : State) (b : Bool) : (skipIf s b).prog = s.prog := by cases b <;> rfl

@[simp] theorem skipIf_stack (s : State) (b : Bool) : (skipIf s b).stack = s.stack := by cases b <;> rfl
@[simp] theorem skipIf_stackPtr (s : State) (b : Bool) : (skipIf s b).stackPtr = s.stackPtr := by cases b <;> rfl

@[simp] theorem skipIf_stackLive (s : State) (b : Bool) : (skipIf s b).stackLive = s.stackLive := by cases b <;> rfl
@[simp] theorem skipIf_prescaler (s : State) (b : Bool) : (skipIf s b).prescaler = s.prescaler := by cases b <;> rfl

@[simp] theorem skipIf_t0Inhibit (s : State) (b : Bool) : (skipIf s b).t0Inhibit = s.t0Inhibit := by cases b <;> rfl
@[simp] theorem skipIf_sleeping (s : State) (b : Bool) : (skipIf s b).sleeping = s.sleeping := by cases b <;> rfl

@[simp] theorem skipIf_peripheral (s : State) (b : Bool) : (skipIf s b).peripheral = s.peripheral := by cases b <;> rfl
@[simp] theorem skipIf_tick (s : State) (b : Bool) : (skipIf s b).tick = s.tick := by cases b <;> rfl

@[simp] theorem skipIf_inputs (s : State) (b : Bool) : (skipIf s b).inputs = s.inputs := by cases b <;> rfl
@[simp] theorem skipIf_device (s : State) (b : Bool) : (skipIf s b).device = s.device := by cases b <;> rfl

/-- Everything a skip form with a destination can do (rule R140). -/
theorem finishSkip_cases (s : State) (f : BitVec 7) (d : Dest) (v : Byte) :
    (d = .w ∧ finishSkip s f d v = .next (skipIf { s with w := v } (v == 0x00#8)))
    ∨ (d = .f ∧ namesPcl s f = false ∧ finishSkip s f d v = .next (skipIf (regWrite s f v) (v == 0x00#8)))
    ∨ (d = .f ∧ namesPcl s f = true ∧ finishSkip s f d v = .refused .skipWithPclDest) := by
  cases d
  · exact .inl ⟨rfl, rfl⟩
  · cases h : namesPcl s f <;> simp [finishSkip, h]

/-! ## The stack -/

@[simp] theorem pushSlot_w (s : State) (v : PAddr) : (pushSlot s v).w = s.w := rfl
@[simp] theorem pushSlot_pc (s : State) (v : PAddr) : (pushSlot s v).pc = s.pc := rfl

@[simp] theorem pushSlot_status (s : State) (v : PAddr) : (pushSlot s v).status = s.status := rfl
@[simp] theorem pushSlot_fsr (s : State) (v : PAddr) : (pushSlot s v).fsr = s.fsr := rfl

@[simp] theorem pushSlot_pclath (s : State) (v : PAddr) : (pushSlot s v).pclath = s.pclath := rfl
@[simp] theorem pushSlot_intcon (s : State) (v : PAddr) : (pushSlot s v).intcon = s.intcon := rfl

@[simp] theorem pushSlot_tmr0 (s : State) (v : PAddr) : (pushSlot s v).tmr0 = s.tmr0 := rfl
@[simp] theorem pushSlot_optionReg (s : State) (v : PAddr) : (pushSlot s v).optionReg = s.optionReg := rfl

@[simp] theorem pushSlot_portA (s : State) (v : PAddr) : (pushSlot s v).portA = s.portA := rfl
@[simp] theorem pushSlot_portB (s : State) (v : PAddr) : (pushSlot s v).portB = s.portB := rfl

@[simp] theorem pushSlot_portC (s : State) (v : PAddr) : (pushSlot s v).portC = s.portC := rfl
@[simp] theorem pushSlot_furtherPorts (s : State) (v : PAddr) : (pushSlot s v).furtherPorts = s.furtherPorts := rfl
@[simp] theorem pushSlot_mem (s : State) (v : PAddr) : (pushSlot s v).mem = s.mem := rfl

@[simp] theorem pushSlot_prog (s : State) (v : PAddr) : (pushSlot s v).prog = s.prog := rfl
@[simp] theorem pushSlot_prescaler (s : State) (v : PAddr) : (pushSlot s v).prescaler = s.prescaler := rfl

@[simp] theorem pushSlot_t0Inhibit (s : State) (v : PAddr) : (pushSlot s v).t0Inhibit = s.t0Inhibit := rfl
@[simp] theorem pushSlot_wdt (s : State) (v : PAddr) : (pushSlot s v).wdt = s.wdt := rfl

@[simp] theorem pushSlot_sleeping (s : State) (v : PAddr) : (pushSlot s v).sleeping = s.sleeping := rfl
@[simp] theorem pushSlot_peripheral (s : State) (v : PAddr) : (pushSlot s v).peripheral = s.peripheral := rfl

@[simp] theorem pushSlot_cycles (s : State) (v : PAddr) : (pushSlot s v).cycles = s.cycles := rfl
@[simp] theorem pushSlot_elapsed (s : State) (v : PAddr) : (pushSlot s v).elapsed = s.elapsed := rfl

@[simp] theorem pushSlot_tick (s : State) (v : PAddr) : (pushSlot s v).tick = s.tick := rfl
@[simp] theorem pushSlot_inputs (s : State) (v : PAddr) : (pushSlot s v).inputs = s.inputs := rfl

@[simp] theorem pushSlot_device (s : State) (v : PAddr) : (pushSlot s v).device = s.device := rfl
@[simp] theorem popSlot_w (s : State) : (popSlot s).w = s.w := rfl

@[simp] theorem popSlot_pc (s : State) : (popSlot s).pc = s.pc := rfl
@[simp] theorem popSlot_status (s : State) : (popSlot s).status = s.status := rfl

@[simp] theorem popSlot_fsr (s : State) : (popSlot s).fsr = s.fsr := rfl
@[simp] theorem popSlot_pclath (s : State) : (popSlot s).pclath = s.pclath := rfl

@[simp] theorem popSlot_intcon (s : State) : (popSlot s).intcon = s.intcon := rfl
@[simp] theorem popSlot_tmr0 (s : State) : (popSlot s).tmr0 = s.tmr0 := rfl

@[simp] theorem popSlot_optionReg (s : State) : (popSlot s).optionReg = s.optionReg := rfl
@[simp] theorem popSlot_portA (s : State) : (popSlot s).portA = s.portA := rfl

@[simp] theorem popSlot_portB (s : State) : (popSlot s).portB = s.portB := rfl
@[simp] theorem popSlot_portC (s : State) : (popSlot s).portC = s.portC := rfl
@[simp] theorem popSlot_furtherPorts (s : State) : (popSlot s).furtherPorts = s.furtherPorts := rfl

@[simp] theorem popSlot_mem (s : State) : (popSlot s).mem = s.mem := rfl
@[simp] theorem popSlot_prog (s : State) : (popSlot s).prog = s.prog := rfl

@[simp] theorem popSlot_prescaler (s : State) : (popSlot s).prescaler = s.prescaler := rfl
@[simp] theorem popSlot_t0Inhibit (s : State) : (popSlot s).t0Inhibit = s.t0Inhibit := rfl

@[simp] theorem popSlot_wdt (s : State) : (popSlot s).wdt = s.wdt := rfl
@[simp] theorem popSlot_sleeping (s : State) : (popSlot s).sleeping = s.sleeping := rfl

@[simp] theorem popSlot_peripheral (s : State) : (popSlot s).peripheral = s.peripheral := rfl
@[simp] theorem popSlot_cycles (s : State) : (popSlot s).cycles = s.cycles := rfl

@[simp] theorem popSlot_elapsed (s : State) : (popSlot s).elapsed = s.elapsed := rfl
@[simp] theorem popSlot_tick (s : State) : (popSlot s).tick = s.tick := rfl

@[simp] theorem popSlot_inputs (s : State) : (popSlot s).inputs = s.inputs := rfl
@[simp] theorem popSlot_device (s : State) : (popSlot s).device = s.device := rfl

@[simp] theorem popSlot_stack (s : State) : (popSlot s).stack = s.stack := rfl

/-- Everything a push can do (rule R35). -/
theorem push_cases (s : State) (v : PAddr) :
    (push s v = some (pushSlot s v) ∧ (s.device.stackMode = .circular ∨ s.stackLive < s.device.stackDepth))
    ∨ (push s v = none ∧ s.device.stackMode = .fault ∧ s.device.stackDepth ≤ s.stackLive) := by
  unfold push
  cases h : s.device.stackMode <;> simp; omega

/-- Everything a pop can do (rule R35). -/
theorem pop_cases (s : State) :
    (pop s = some (tos s, popSlot s) ∧ (s.device.stackMode = .circular ∨ 0 < s.stackLive))
    ∨ (pop s = none ∧ s.device.stackMode = .fault ∧ s.stackLive = 0) := by
  unfold pop
  cases h : s.device.stackMode <;> simp; omega

/-- The slot on top after a push is the one the push wrote (rule R34). -/
theorem topSlot_pushSlot (s : State) (v : PAddr) (h : s.stackPtr < s.device.stackDepth) :
    topSlot (pushSlot s v) = s.stackPtr := by
  show ((s.stackPtr + 1) % s.device.stackDepth + s.device.stackDepth - 1) % s.device.stackDepth = s.stackPtr
  by_cases e : s.stackPtr + 1 = s.device.stackDepth
  · rw [e, Nat.mod_self, ← e]; simp
  · rw [Nat.mod_eq_of_lt (by omega : s.stackPtr + 1 < _),
      show s.stackPtr + 1 + s.device.stackDepth - 1 = s.stackPtr + s.device.stackDepth by omega, Nat.add_mod_right,
      Nat.mod_eq_of_lt h]

/-- The value pushed is on top (rule R34). -/
theorem tos_pushSlot (s : State) (v : PAddr) (h : s.stackPtr < s.device.stackDepth) : tos (pushSlot s v) = v := by
  unfold tos
  rw [topSlot_pushSlot s v h]
  exact cellRead_write_same _ _ _ _

/-! ## The watchdog -/

@[simp] theorem clearWdt_w (s : State) : (clearWdt s).w = s.w := rfl
@[simp] theorem clearWdt_pc (s : State) : (clearWdt s).pc = s.pc := rfl

@[simp] theorem clearWdt_status (s : State) : (clearWdt s).status = s.status := rfl
@[simp] theorem clearWdt_fsr (s : State) : (clearWdt s).fsr = s.fsr := rfl

@[simp] theorem clearWdt_pclath (s : State) : (clearWdt s).pclath = s.pclath := rfl
@[simp] theorem clearWdt_intcon (s : State) : (clearWdt s).intcon = s.intcon := rfl

@[simp] theorem clearWdt_tmr0 (s : State) : (clearWdt s).tmr0 = s.tmr0 := rfl
@[simp] theorem clearWdt_optionReg (s : State) : (clearWdt s).optionReg = s.optionReg := rfl

@[simp] theorem clearWdt_portA (s : State) : (clearWdt s).portA = s.portA := rfl
@[simp] theorem clearWdt_portB (s : State) : (clearWdt s).portB = s.portB := rfl

@[simp] theorem clearWdt_portC (s : State) : (clearWdt s).portC = s.portC := rfl
@[simp] theorem clearWdt_furtherPorts (s : State) : (clearWdt s).furtherPorts = s.furtherPorts := rfl
@[simp] theorem clearWdt_mem (s : State) : (clearWdt s).mem = s.mem := rfl

@[simp] theorem clearWdt_prog (s : State) : (clearWdt s).prog = s.prog := rfl
@[simp] theorem clearWdt_stack (s : State) : (clearWdt s).stack = s.stack := rfl

@[simp] theorem clearWdt_stackPtr (s : State) : (clearWdt s).stackPtr = s.stackPtr := rfl
@[simp] theorem clearWdt_stackLive (s : State) : (clearWdt s).stackLive = s.stackLive := rfl

@[simp] theorem clearWdt_t0Inhibit (s : State) : (clearWdt s).t0Inhibit = s.t0Inhibit := rfl
@[simp] theorem clearWdt_sleeping (s : State) : (clearWdt s).sleeping = s.sleeping := rfl

@[simp] theorem clearWdt_peripheral (s : State) : (clearWdt s).peripheral = s.peripheral := rfl
@[simp] theorem clearWdt_cycles (s : State) : (clearWdt s).cycles = s.cycles := rfl

@[simp] theorem clearWdt_elapsed (s : State) : (clearWdt s).elapsed = s.elapsed := rfl
@[simp] theorem clearWdt_tick (s : State) : (clearWdt s).tick = s.tick := rfl

@[simp] theorem clearWdt_inputs (s : State) : (clearWdt s).inputs = s.inputs := rfl
@[simp] theorem clearWdt_device (s : State) : (clearWdt s).device = s.device := rfl

end Sys2Proof.Machine
end

