-- ==== Sys2Proof/Laws/Environment.lean ====
section
/-! SUPPORT. What the environment's part of a boundary can change: Timer0's steps, `applyInput`, and the outcomes of `turn`. -/

namespace Sys2Proof.Machine

/-! ## Timer0 -/

@[simp] theorem clockTimer0_w (s : State) (n : Nat) : (clockTimer0 s n).w = s.w := by
  unfold clockTimer0; split <;> rfl

@[simp] theorem clockTimer0_pc (s : State) (n : Nat) : (clockTimer0 s n).pc = s.pc := by
  unfold clockTimer0; split <;> rfl

@[simp] theorem clockTimer0_status (s : State) (n : Nat) : (clockTimer0 s n).status = s.status := by
  unfold clockTimer0; split <;> rfl

@[simp] theorem clockTimer0_fsr (s : State) (n : Nat) : (clockTimer0 s n).fsr = s.fsr := by
  unfold clockTimer0; split <;> rfl

@[simp] theorem clockTimer0_pclath (s : State) (n : Nat) : (clockTimer0 s n).pclath = s.pclath := by
  unfold clockTimer0; split <;> rfl

@[simp] theorem clockTimer0_optionReg (s : State) (n : Nat) : (clockTimer0 s n).optionReg = s.optionReg := by
  unfold clockTimer0; split <;> rfl

@[simp] theorem clockTimer0_portA (s : State) (n : Nat) : (clockTimer0 s n).portA = s.portA := by
  unfold clockTimer0; split <;> rfl

@[simp] theorem clockTimer0_portB (s : State) (n : Nat) : (clockTimer0 s n).portB = s.portB := by
  unfold clockTimer0; split <;> rfl

@[simp] theorem clockTimer0_portC (s : State) (n : Nat) : (clockTimer0 s n).portC = s.portC := by
  unfold clockTimer0; split <;> rfl

@[simp] theorem clockTimer0_furtherPorts (s : State) (n : Nat) : (clockTimer0 s n).furtherPorts = s.furtherPorts := by
  unfold clockTimer0; split <;> rfl

@[simp] theorem clockTimer0_mem (s : State) (n : Nat) : (clockTimer0 s n).mem = s.mem := by
  unfold clockTimer0; split <;> rfl

@[simp] theorem clockTimer0_prog (s : State) (n : Nat) : (clockTimer0 s n).prog = s.prog := by
  unfold clockTimer0; split <;> rfl

@[simp] theorem clockTimer0_stack (s : State) (n : Nat) : (clockTimer0 s n).stack = s.stack := by
  unfold clockTimer0; split <;> rfl

@[simp] theorem clockTimer0_stackPtr (s : State) (n : Nat) : (clockTimer0 s n).stackPtr = s.stackPtr := by
  unfold clockTimer0; split <;> rfl

@[simp] theorem clockTimer0_stackLive (s : State) (n : Nat) : (clockTimer0 s n).stackLive = s.stackLive := by
  unfold clockTimer0; split <;> rfl

@[simp] theorem clockTimer0_wdt (s : State) (n : Nat) : (clockTimer0 s n).wdt = s.wdt := by
  unfold clockTimer0; split <;> rfl

@[simp] theorem clockTimer0_sleeping (s : State) (n : Nat) : (clockTimer0 s n).sleeping = s.sleeping := by
  unfold clockTimer0; split <;> rfl

@[simp] theorem clockTimer0_peripheral (s : State) (n : Nat) : (clockTimer0 s n).peripheral = s.peripheral := by
  unfold clockTimer0; split <;> rfl

@[simp] theorem clockTimer0_cycles (s : State) (n : Nat) : (clockTimer0 s n).cycles = s.cycles := by
  unfold clockTimer0; split <;> rfl

@[simp] theorem clockTimer0_tick (s : State) (n : Nat) : (clockTimer0 s n).tick = s.tick := by
  unfold clockTimer0; split <;> rfl

@[simp] theorem clockTimer0_inputs (s : State) (n : Nat) : (clockTimer0 s n).inputs = s.inputs := by
  unfold clockTimer0; split <;> rfl

@[simp] theorem clockTimer0_device (s : State) (n : Nat) : (clockTimer0 s n).device = s.device := by
  unfold clockTimer0; split <;> rfl

@[simp] theorem clockTimer0_elapsed (s : State) (n : Nat) : (clockTimer0 s n).elapsed = s.elapsed := by
  unfold clockTimer0; split <;> rfl

@[simp] theorem clockTimer0_t0Inhibit (s : State) (n : Nat) : (clockTimer0 s n).t0Inhibit = s.t0Inhibit := by
  unfold clockTimer0; split <;> rfl

@[simp] theorem runTimer0_w (s : State) : (runTimer0 s).w = s.w := by
  unfold runTimer0; dsimp only; split <;> simp

@[simp] theorem runTimer0_pc (s : State) : (runTimer0 s).pc = s.pc := by
  unfold runTimer0; dsimp only; split <;> simp

@[simp] theorem runTimer0_status (s : State) : (runTimer0 s).status = s.status := by
  unfold runTimer0; dsimp only; split <;> simp

@[simp] theorem runTimer0_fsr (s : State) : (runTimer0 s).fsr = s.fsr := by
  unfold runTimer0; dsimp only; split <;> simp

@[simp] theorem runTimer0_pclath (s : State) : (runTimer0 s).pclath = s.pclath := by
  unfold runTimer0; dsimp only; split <;> simp

@[simp] theorem runTimer0_optionReg (s : State) : (runTimer0 s).optionReg = s.optionReg := by
  unfold runTimer0; dsimp only; split <;> simp

@[simp] theorem runTimer0_portA (s : State) : (runTimer0 s).portA = s.portA := by
  unfold runTimer0; dsimp only; split <;> simp

@[simp] theorem runTimer0_portB (s : State) : (runTimer0 s).portB = s.portB := by
  unfold runTimer0; dsimp only; split <;> simp

@[simp] theorem runTimer0_portC (s : State) : (runTimer0 s).portC = s.portC := by
  unfold runTimer0; dsimp only; split <;> simp

@[simp] theorem runTimer0_furtherPorts (s : State) : (runTimer0 s).furtherPorts = s.furtherPorts := by
  unfold runTimer0; dsimp only; split <;> simp

@[simp] theorem runTimer0_mem (s : State) : (runTimer0 s).mem = s.mem := by
  unfold runTimer0; dsimp only; split <;> simp

@[simp] theorem runTimer0_prog (s : State) : (runTimer0 s).prog = s.prog := by
  unfold runTimer0; dsimp only; split <;> simp

@[simp] theorem runTimer0_stack (s : State) : (runTimer0 s).stack = s.stack := by
  unfold runTimer0; dsimp only; split <;> simp

@[simp] theorem runTimer0_stackPtr (s : State) : (runTimer0 s).stackPtr = s.stackPtr := by
  unfold runTimer0; dsimp only; split <;> simp

@[simp] theorem runTimer0_stackLive (s : State) : (runTimer0 s).stackLive = s.stackLive := by
  unfold runTimer0; dsimp only; split <;> simp

@[simp] theorem runTimer0_wdt (s : State) : (runTimer0 s).wdt = s.wdt := by
  unfold runTimer0; dsimp only; split <;> simp

@[simp] theorem runTimer0_sleeping (s : State) : (runTimer0 s).sleeping = s.sleeping := by
  unfold runTimer0; dsimp only; split <;> simp

@[simp] theorem runTimer0_peripheral (s : State) : (runTimer0 s).peripheral = s.peripheral := by
  unfold runTimer0; dsimp only; split <;> simp

@[simp] theorem runTimer0_cycles (s : State) : (runTimer0 s).cycles = s.cycles := by
  unfold runTimer0; dsimp only; split <;> simp

@[simp] theorem runTimer0_tick (s : State) : (runTimer0 s).tick = s.tick := by
  unfold runTimer0; dsimp only; split <;> simp

@[simp] theorem runTimer0_inputs (s : State) : (runTimer0 s).inputs = s.inputs := by
  unfold runTimer0; dsimp only; split <;> simp

@[simp] theorem runTimer0_device (s : State) : (runTimer0 s).device = s.device := by
  unfold runTimer0; dsimp only; split <;> simp

/-- No clock changes nothing. -/
@[simp] theorem clockTimer0_zero (s : State) : clockTimer0 s 0 = s := by
  have h : ¬ 256 ≤ s.tmr0.toNat := by have := s.tmr0.isLt; omega
  unfold clockTimer0 countTmr0
  simp [h]

/-- Without edges the T0CKI pin gives no clock. -/
@[simp] theorem t0ckiClocks_nil (s : State) : t0ckiClocks s [] = 0 := by simp [t0ckiClocks]

@[simp] theorem runTimer0_elapsed (s : State) : (runTimer0 s).elapsed = 0 := by
  unfold runTimer0; dsimp only; split <;> simp

/-! ## INTCON: Timer0 and the device only set flag bits (rules R194, R195) -/

/-- `new` is `old` with flag bits, bits 2:0, set and nothing else changed. -/
def OnlySetsFlags (old new : Byte) : Prop := ∃ m : Byte, new = old ||| (m &&& 0x07#8)

theorem OnlySetsFlags.refl (v : Byte) : OnlySetsFlags v v := ⟨0, by simp⟩

theorem OnlySetsFlags.trans {a b c : Byte} (h : OnlySetsFlags a b) (h' : OnlySetsFlags b c) : OnlySetsFlags a c := by
  obtain ⟨m, rfl⟩ := h
  obtain ⟨n, rfl⟩ := h'
  exact ⟨m ||| n, by rw [BitVec.or_assoc, BitVec.and_or_distrib_right]⟩

theorem countTmr0_intcon (s : State) (n : Nat) : OnlySetsFlags s.intcon (countTmr0 s n).intcon := by
  unfold countTmr0; dsimp only
  split
  · exact ⟨0x04#8, rfl⟩
  · exact .refl _

theorem clockTimer0_intcon (s : State) (n : Nat) : OnlySetsFlags s.intcon (clockTimer0 s n).intcon := by
  unfold clockTimer0
  split
  · exact countTmr0_intcon s n
  · exact countTmr0_intcon { s with prescaler := _ } _

theorem runTimer0_intcon (s : State) : OnlySetsFlags s.intcon (runTimer0 s).intcon := by
  unfold runTimer0; dsimp only
  split
  · exact .refl _
  · exact clockTimer0_intcon { s with elapsed := 0, t0Inhibit := _ } _

theorem raisedFlags_low (s : State) (inp : Input) : raisedFlags s inp = raisedFlags s inp &&& 0x07#8 := by
  have h : ∀ a b : Byte, a = a &&& 0x07#8 → b = b &&& 0x07#8 → a ||| b = (a ||| b) &&& 0x07#8 := by
    intro a b ha hb
    rw [BitVec.and_or_distrib_right, ← ha, ← hb]
  unfold raisedFlags
  refine h _ _ (h _ _ ?_ ?_) ?_
  · rw [BitVec.and_assoc]; rfl
  · split
    · split <;> rfl
    · rfl
  · split <;> rfl

theorem applyInput_intcon (s : State) (inp : Input) : OnlySetsFlags s.intcon (applyInput s inp).intcon := by
  refine ((runTimer0_intcon s).trans (clockTimer0_intcon _ (t0ckiClocks s inp.t0cki))).trans ?_
  refine ⟨raisedFlags s inp, ?_⟩
  rw [← raisedFlags_low]
  rfl

/-! ## applyInput -/

@[simp] theorem applyInput_w (s : State) (inp : Input) : (applyInput s inp).w = s.w := by
  simp [applyInput]

@[simp] theorem applyInput_pc (s : State) (inp : Input) : (applyInput s inp).pc = s.pc := by
  simp [applyInput]

@[simp] theorem applyInput_status (s : State) (inp : Input) : (applyInput s inp).status = s.status := by
  simp [applyInput]

@[simp] theorem applyInput_fsr (s : State) (inp : Input) : (applyInput s inp).fsr = s.fsr := by
  simp [applyInput]

@[simp] theorem applyInput_pclath (s : State) (inp : Input) : (applyInput s inp).pclath = s.pclath := by
  simp [applyInput]

@[simp] theorem applyInput_optionReg (s : State) (inp : Input) : (applyInput s inp).optionReg = s.optionReg := by
  simp [applyInput]

@[simp] theorem applyInput_mem (s : State) (inp : Input) : (applyInput s inp).mem = s.mem := by
  simp [applyInput]

@[simp] theorem applyInput_prog (s : State) (inp : Input) : (applyInput s inp).prog = s.prog := by
  simp [applyInput]

@[simp] theorem applyInput_stack (s : State) (inp : Input) : (applyInput s inp).stack = s.stack := by
  simp [applyInput]

@[simp] theorem applyInput_stackPtr (s : State) (inp : Input) : (applyInput s inp).stackPtr = s.stackPtr := by
  simp [applyInput]

@[simp] theorem applyInput_stackLive (s : State) (inp : Input) : (applyInput s inp).stackLive = s.stackLive := by
  simp [applyInput]

@[simp] theorem applyInput_sleeping (s : State) (inp : Input) : (applyInput s inp).sleeping = s.sleeping := by
  simp [applyInput]

@[simp] theorem applyInput_cycles (s : State) (inp : Input) : (applyInput s inp).cycles = s.cycles := by
  simp [applyInput]

@[simp] theorem applyInput_device (s : State) (inp : Input) : (applyInput s inp).device = s.device := by
  simp [applyInput]

@[simp] theorem applyInput_elapsed (s : State) (inp : Input) : (applyInput s inp).elapsed = 0 := by
  simp [applyInput]

@[simp] theorem applyInput_tick (s : State) (inp : Input) : (applyInput s inp).tick = s.tick + 1 := by
  simp [applyInput]

@[simp] theorem applyInput_inputs (s : State) (inp : Input) : (applyInput s inp).inputs = s.inputs.tail := by
  simp [applyInput]

/-- The inhibit of Timer0 only runs down at a boundary (rule R203). -/
theorem applyInput_t0Inhibit (s : State) (inp : Input) : (applyInput s inp).t0Inhibit ≤ s.t0Inhibit := by
  have h : (runTimer0 s).t0Inhibit ≤ s.t0Inhibit := by
    unfold runTimer0; dsimp only
    split <;> simp
  simpa [applyInput] using h

/-- New drives keep the further ports' canonical form. -/
theorem driveFurther_canonical (count : Nat) (ports : List (Nat × Port)) (ds : List (Nat × PinDrive))
    (h : cellsCanonical unlistedPort count ports = true) :
    cellsCanonical unlistedPort count (driveFurther count ports ds) = true := by
  induction ds generalizing ports with
  | nil => exact h
  | cons d rest ih =>
    obtain ⟨n, x⟩ := d
    unfold driveFurther
    refine ih _ ?_
    split_ifs with hn
    · exact cellsCanonical_write _ _ _ _ _ hn h
    · exact h

/-- New drives leave a further port's latch and TRIS register. -/
theorem cellRead_driveFurther (count : Nat) (ports : List (Nat × Port)) (ds : List (Nat × PinDrive)) (m : Nat) :
    (cellRead unlistedPort (driveFurther count ports ds) m).latch = (cellRead unlistedPort ports m).latch
    ∧ (cellRead unlistedPort (driveFurther count ports ds) m).tris = (cellRead unlistedPort ports m).tris := by
  induction ds generalizing ports with
  | nil => exact ⟨rfl, rfl⟩
  | cons d rest ih =>
    obtain ⟨n, x⟩ := d
    unfold driveFurther
    rw [(ih _).1, (ih _).2]
    split_ifs with hn
    · by_cases h : m = n
      · subst h; rw [cellRead_write_same]; exact ⟨rfl, rfl⟩
      · rw [cellRead_write_other _ _ h]; exact ⟨rfl, rfl⟩
    · exact ⟨rfl, rfl⟩

/-- A boundary's events leave a port's latch and TRIS register. -/
theorem applyInput_port (s : State) (inp : Input) (p : PortId) :
    ((applyInput s inp).port p).latch = (s.port p).latch ∧ ((applyInput s inp).port p).tris = (s.port p).tris := by
  have hd : ∀ (q : Port) (d : Option PinDrive), (Port.driven q d).latch = q.latch ∧ (Port.driven q d).tris = q.tris := by
    intro q d; cases d <;> exact ⟨rfl, rfl⟩
  cases p with
  | further n => simpa [applyInput, State.port] using cellRead_driveFurther _ _ inp.pinsFurther n
  | _ => simpa [applyInput, State.port] using hd _ _

/-! ## Resets -/

/-- A bit with a reset value takes it, another keeps its own (rule R50). -/
theorem afterReset_bit (r : ResetByte) (old : Byte) (k : Nat) :
    (afterReset r old).getLsbD k = if r.fixed.getLsbD k then r.value.getLsbD k else old.getLsbD k :=
  mergeMask_bit r.fixed r.value old k

/-- A reset keeps the further ports' canonical form. -/
theorem resetFurther_canonical (d : Device) (f : PortReset → Port → Port) (ports : List (Nat × Port)) {hi n : Nat} (hn : n ≤ hi)
    (h : cellsCanonical unlistedPort hi ports = true) : cellsCanonical unlistedPort hi (resetFurther d f ports n) = true := by
  induction n with
  | zero => exact h
  | succ n ih => exact cellsCanonical_write _ _ _ _ _ hn (ih (by omega))

/-- A further port after a reset: changed if the device has it, as it was if not. -/
theorem cellRead_resetFurther (d : Device) (f : PortReset → Port → Port) (ports : List (Nat × Port)) (n m : Nat) :
    cellRead unlistedPort (resetFurther d f ports n) m =
      if m < n then f (Device.portReset d (.further m)) (cellRead unlistedPort ports m) else cellRead unlistedPort ports m := by
  induction n with
  | zero => rfl
  | succ n ih =>
    by_cases h : m = n
    · subst h
      rw [if_pos (Nat.lt_succ_self m)]
      exact cellRead_write_same _ _ _ _
    · refine (cellRead_write_other _ _ h _).trans (ih.trans ?_)
      split_ifs <;> first | rfl | omega

/-! ## The outcomes of a boundary -/

/-- Everything a boundary can lead to (rule R211, steps 0 to 3). -/
theorem turn_cases (s : State) :
    (s.input.reset = some .powerOn ∧ turn s = .rest (powerOnReset (applyInput s s.input)))
    ∨ (s.input.reset = some .external ∧ turn s = .rest (externalReset (applyInput s s.input)))
    ∨ (s.input.reset = none ∧ s.sleeping = false ∧ wdtFires (applyInput s s.input) s.input = true
        ∧ turn s = .rest (watchdogReset (applyInput s s.input)))
    ∨ (s.input.reset = none ∧ s.sleeping = false ∧ wdtFires (applyInput s s.input) s.input = false
        ∧ (interruptDue (applyInput s s.input) && !interruptHeld (applyInput s s.input) s.input) = true
        ∧ turn s = .interrupt (applyInput s s.input))
    ∨ (s.input.reset = none ∧ s.sleeping = false ∧ wdtFires (applyInput s s.input) s.input = false
        ∧ (interruptDue (applyInput s s.input) && !interruptHeld (applyInput s s.input) s.input) = false
        ∧ turn s = .run (applyInput s s.input))
    ∨ (s.input.reset = none ∧ s.sleeping = true ∧ wdtFires (applyInput s s.input) s.input = false
        ∧ interruptWakes s (applyInput s s.input) s.input = false ∧ turn s = .rest (applyInput s s.input))
    ∨ (s.input.reset = none ∧ s.sleeping = true ∧ wdtFires (applyInput s s.input) s.input = false
        ∧ interruptWakes s (applyInput s s.input) s.input = true
        ∧ turn s = .run { applyInput s s.input with sleeping := false })
    ∨ (s.input.reset = none ∧ s.sleeping = true ∧ wdtFires (applyInput s s.input) s.input = true
        ∧ (turn s = .run (watchdogWake (applyInput s s.input))
          ∨ (interruptDue (watchdogWake (applyInput s s.input)) = true
            ∧ turn s = .interrupt (watchdogWake (applyInput s s.input))))) := by
  unfold turn
  dsimp only
  generalize s.input = inp
  obtain ⟨t, ht⟩ : ∃ t, applyInput s inp = t := ⟨_, rfl⟩
  have hsl : s.sleeping = t.sleeping := by rw [← ht, applyInput_sleeping]
  rw [ht, hsl]
  rcases hr : inp.reset with _ | _ | _
  · cases hs : t.sleeping <;> cases hw : wdtFires t inp
    · cases hi : interruptDue t && !interruptHeld t inp <;> simp
    · simp
    · cases hi : interruptWakes s t inp <;> simp
    · cases hi : interruptWakes s t inp
      · cases hd : interruptDue (watchdogWake t) <;> cases hh : interruptHeld (watchdogWake t) inp <;> simp [hd, hh]
      · simp [watchdogWake]
  · simp
  · simp

end Sys2Proof.Machine
end

