-- ==== Sys2Proof/Laws/PerInstr.lean ====
section
/-! SUPPORT. Statements about each instruction as syntax. CanonicalEncoding: the encoder emits every don't-care bit as 0
(rules R97, R108), so that clearing the don't-care bits of its word changes nothing. -/

namespace Sys2Proof.Laws.CanonicalEncoding

/-- The word of a well-formed instruction has every don't-care bit of its row 0 (rule R108). -/
def Statement (i : Instr) : Prop := i.wellFormed = true → canonicalWord (encode i) = encode i

/-- An operand field stays within a mask that holds its bits. -/
theorem field_inside {n : Nat} (k : BitVec n) (o : OpWord) (ho : ∀ j : Fin n, o.getLsbD j.val = true) :
    k.zeroExtend 14 &&& ~~~o = 0#14 := by
  apply BitVec.eq_of_getLsbD_eq
  intro j hj
  by_cases h : j < n
  · simp [hj, ho ⟨j, h⟩]
  · simp [BitVec.getLsbD_of_ge k j (Nat.le_of_not_lt h)]

theorem destBit_inside (d : Dest) : destBit d &&& ~~~0x00FF#14 = 0#14 := by cases d <;> decide

theorem or_inside {x y o : OpWord} (hx : x &&& ~~~o = 0#14) (hy : y &&& ~~~o = 0#14) : (x ||| y) &&& ~~~o = 0#14 := by
  rw [BitVec.and_or_distrib_right, hx, hy]; rfl

/-- Outside the operand mask a word is its row's base. -/
theorem base_outside {base x o m p : OpWord} (hx : x &&& ~~~o = 0#14) (h : (base ||| x) &&& m = p) :
    base &&& (m &&& ~~~o) = p &&& ~~~o := by
  have : x &&& (m &&& ~~~o) = 0#14 := by rw [BitVec.and_comm m, ← BitVec.and_assoc, hx]; simp
  rw [← h, BitVec.and_assoc, BitVec.and_or_distrib_right, this]
  simp

/-- A word whose base, outside its operand, meets none of the rows with don't-care bits is canonical. -/
theorem canonicalWord_of_base {base x : OpWord} (o : OpWord) (hx : x &&& ~~~o = 0#14)
    (h1 : base &&& (0x3F80#14 &&& ~~~o) ≠ 0x0100#14 &&& ~~~o) (h2 : base &&& (0x3F9F#14 &&& ~~~o) ≠ 0x0000#14 &&& ~~~o)
    (h3 : base &&& (0x3800#14 &&& ~~~o) ≠ 0x3000#14 &&& ~~~o) (h4 : base &&& (0x3C00#14 &&& ~~~o) ≠ 0x3C00#14 &&& ~~~o) :
    canonicalWord (base ||| x) = base ||| x := by
  unfold canonicalWord
  split_ifs with k1 k2 k3 k4
  · exact absurd (base_outside hx k1) h1
  · exact absurd (base_outside hx k2) h2
  · exact absurd (base_outside hx k3) h3
  · exact absurd (base_outside hx k4) h4
  · rfl

theorem byteWord_canonical (base : OpWord) (f : BitVec 7) (d : Dest)
    (h1 : base &&& 0x3F00#14 ≠ 0x0100#14) (h2 : base &&& 0x3F00#14 ≠ 0x0000#14)
    (h3 : base &&& 0x3800#14 ≠ 0x3000#14) (h4 : base &&& 0x3C00#14 ≠ 0x3C00#14) :
    canonicalWord (byteWord base f d) = byteWord base f d := by
  unfold byteWord
  rw [BitVec.or_assoc]
  exact canonicalWord_of_base 0x00FF#14 (or_inside (destBit_inside d) (field_inside f _ (by decide))) h1 h2 h3 h4

theorem bitWord_canonical (base : OpWord) (f : BitVec 7) (b : BitVec 3)
    (h1 : base &&& 0x3C00#14 ≠ 0x0000#14) (h3 : base &&& 0x3800#14 ≠ 0x3000#14)
    (h4 : base &&& 0x3C00#14 ≠ 0x3C00#14) : canonicalWord (bitWord base f b) = bitWord base f b := by
  unfold bitWord
  rw [BitVec.or_assoc]
  exact canonicalWord_of_base 0x03FF#14 (or_inside (by revert b; decide) (field_inside f _ (by decide))) h1 h1 h3 h4

theorem addwf (f : BitVec 7) (d : Dest) : Statement (.addwf f d) := fun _ =>
  byteWord_canonical _ f d (by decide) (by decide) (by decide) (by decide)

theorem andwf (f : BitVec 7) (d : Dest) : Statement (.andwf f d) := fun _ =>
  byteWord_canonical _ f d (by decide) (by decide) (by decide) (by decide)

theorem clrf (f : BitVec 7) : Statement (.clrf f) := fun _ =>
  canonicalWord_of_base 0x007F#14 (field_inside f _ (by decide)) (by decide) (by decide) (by decide) (by decide)

theorem clrw : Statement .clrw := fun _ => by decide

theorem comf (f : BitVec 7) (d : Dest) : Statement (.comf f d) := fun _ =>
  byteWord_canonical _ f d (by decide) (by decide) (by decide) (by decide)

theorem decf (f : BitVec 7) (d : Dest) : Statement (.decf f d) := fun _ =>
  byteWord_canonical _ f d (by decide) (by decide) (by decide) (by decide)

theorem decfsz (f : BitVec 7) (d : Dest) : Statement (.decfsz f d) := fun _ =>
  byteWord_canonical _ f d (by decide) (by decide) (by decide) (by decide)

theorem incf (f : BitVec 7) (d : Dest) : Statement (.incf f d) := fun _ =>
  byteWord_canonical _ f d (by decide) (by decide) (by decide) (by decide)

theorem incfsz (f : BitVec 7) (d : Dest) : Statement (.incfsz f d) := fun _ =>
  byteWord_canonical _ f d (by decide) (by decide) (by decide) (by decide)

theorem iorwf (f : BitVec 7) (d : Dest) : Statement (.iorwf f d) := fun _ =>
  byteWord_canonical _ f d (by decide) (by decide) (by decide) (by decide)

theorem movf (f : BitVec 7) (d : Dest) : Statement (.movf f d) := fun _ =>
  byteWord_canonical _ f d (by decide) (by decide) (by decide) (by decide)

theorem movwf (f : BitVec 7) : Statement (.movwf f) := fun _ =>
  canonicalWord_of_base 0x007F#14 (field_inside f _ (by decide)) (by decide) (by decide) (by decide) (by decide)

theorem nop : Statement .nop := fun _ => by decide

theorem rlf (f : BitVec 7) (d : Dest) : Statement (.rlf f d) := fun _ =>
  byteWord_canonical _ f d (by decide) (by decide) (by decide) (by decide)

theorem rrf (f : BitVec 7) (d : Dest) : Statement (.rrf f d) := fun _ =>
  byteWord_canonical _ f d (by decide) (by decide) (by decide) (by decide)

theorem subwf (f : BitVec 7) (d : Dest) : Statement (.subwf f d) := fun _ =>
  byteWord_canonical _ f d (by decide) (by decide) (by decide) (by decide)

theorem swapf (f : BitVec 7) (d : Dest) : Statement (.swapf f d) := fun _ =>
  byteWord_canonical _ f d (by decide) (by decide) (by decide) (by decide)

theorem xorwf (f : BitVec 7) (d : Dest) : Statement (.xorwf f d) := fun _ =>
  byteWord_canonical _ f d (by decide) (by decide) (by decide) (by decide)

theorem bcf (f : BitVec 7) (b : BitVec 3) : Statement (.bcf f b) := fun _ =>
  bitWord_canonical _ f b (by decide) (by decide) (by decide)

theorem bsf (f : BitVec 7) (b : BitVec 3) : Statement (.bsf f b) := fun _ =>
  bitWord_canonical _ f b (by decide) (by decide) (by decide)

theorem btfsc (f : BitVec 7) (b : BitVec 3) : Statement (.btfsc f b) := fun _ =>
  bitWord_canonical _ f b (by decide) (by decide) (by decide)

theorem btfss (f : BitVec 7) (b : BitVec 3) : Statement (.btfss f b) := fun _ =>
  bitWord_canonical _ f b (by decide) (by decide) (by decide)

theorem addlw (k : BitVec 8) : Statement (.addlw k) := fun _ => by
  revert k
  decide

theorem andlw (k : BitVec 8) : Statement (.andlw k) := fun _ =>
  canonicalWord_of_base 0x00FF#14 (field_inside k _ (by decide)) (by decide) (by decide) (by decide) (by decide)

theorem call (k : BitVec 11) : Statement (.call k) := fun _ =>
  canonicalWord_of_base 0x07FF#14 (field_inside k _ (by decide)) (by decide) (by decide) (by decide) (by decide)

theorem clrwdt : Statement .clrwdt := fun _ => by decide

theorem goto (k : BitVec 11) : Statement (.goto k) := fun _ =>
  canonicalWord_of_base 0x07FF#14 (field_inside k _ (by decide)) (by decide) (by decide) (by decide) (by decide)

theorem iorlw (k : BitVec 8) : Statement (.iorlw k) := fun _ =>
  canonicalWord_of_base 0x00FF#14 (field_inside k _ (by decide)) (by decide) (by decide) (by decide) (by decide)

theorem movlw (k : BitVec 8) : Statement (.movlw k) := fun _ => by
  revert k
  decide

theorem retfie : Statement .retfie := fun _ => by decide

theorem retlw (k : BitVec 8) : Statement (.retlw k) := fun _ => by
  revert k
  decide

theorem ret : Statement .ret := fun _ => by decide

theorem sleep : Statement .sleep := fun _ => by decide

theorem sublw (k : BitVec 8) : Statement (.sublw k) := fun _ => by
  revert k
  decide

theorem xorlw (k : BitVec 8) : Statement (.xorlw k) := fun _ =>
  canonicalWord_of_base 0x00FF#14 (field_inside k _ (by decide)) (by decide) (by decide) (by decide) (by decide)

theorem option : Statement .option := fun _ => by decide

theorem tris (f : BitVec 3) : Statement (.tris f) := by
  revert f
  unfold Statement
  decide

end Sys2Proof.Laws.CanonicalEncoding
end

