-- ==== Sys2Proof/Laws/Results.lean ====
section
/-! SUPPORT. What writing a result to a destination and going on leaves, in the terms of Safety: everything but the STATUS
flags, which the instruction writes after it (rule R29). -/

namespace Sys2Proof.Machine

/-- The endings of the byte-oriented instructions write the destination and nothing else but STATUS (rules R25, R65). -/
theorem finishDest_wrote (s : State) (f : BitVec 7) (d : Dest) (r x : Byte) :
    WroteDest s { finishDest s f d r with status := x } f d r (s.pc + 1) 1 := by
  cases d with
  | w => rfl
  | f =>
    unfold finishDest finishFile namesPcl WroteDest WroteFile regWrite
    obtain h | ⟨a, h⟩ : fileTarget s f = none ∨ ∃ a, fileTarget s f = some a := by
      cases fileTarget s f <;> simp
    · simp [h]; rfl
    · obtain ⟨k, hk⟩ : ∃ k, Device.kindAt s.device a = k := ⟨_, rfl⟩
      cases k with
      | tris p =>
        cases p with
        | further n =>
          simp only [h, hk, WroteLocation, writeAt]
          exact ⟨rfl, cellRead_write_same _ _ _ _, fun m hm => cellRead_write_other _ _ hm _⟩
        | _ => simp [h, hk, WroteLocation, writeAt]; rfl
      | port p =>
        cases p with
        | further n =>
          simp only [h, hk, WroteLocation, writeAt]
          exact ⟨rfl, cellRead_write_same _ _ _ _, fun m hm => cellRead_write_other _ _ hm _⟩
        | _ => simp [h, hk, WroteLocation, writeAt]; rfl
      | general | mirror _ =>
        simp only [h, hk, WroteLocation, writeAt]
        exact ⟨rfl, Memory.read_write_same _ _ _, fun b hb => Memory.read_write_other _ hb _⟩
      | _ => simp [h, hk, WroteLocation, writeAt]; rfl

/-- STATUS after the data write, before the flags: written through the mask if it is the destination (rules R29, R31). -/
theorem finishDest_status (s : State) (f : BitVec 7) (d : Dest) (r : Byte) :
    (finishDest s f d r).status =
      if writesStatus s f d then (r &&& s.device.statusWriteMask) ||| (s.status &&& ~~~s.device.statusWriteMask)
      else s.status := by
  cases d with
  | w => rfl
  | f =>
    unfold finishDest finishFile namesPcl writesStatus regWrite
    obtain h | ⟨a, h⟩ : fileTarget s f = none ∨ ∃ a, fileTarget s f = some a := by
      cases fileTarget s f <;> simp
    · simp [h]
    · obtain ⟨k, hk⟩ : ∃ k, Device.kindAt s.device a = k := ⟨_, rfl⟩
      cases k <;> simp [h, hk, writeAt, mergeMask, writeTmr0, State.setTris, State.setLatch]

/-- What stands at an address depends on the map alone. -/
theorem kindAt_default (d : Device) (h : d.dataMap = defaultMap) (a : DAddr) :
    Device.kindAt d a = Device.kindAt defaultDevice a := by
  unfold Device.kindAt; rw [h]; rfl

theorem canon_default (d : Device) (h : d.dataMap = defaultMap) (a : DAddr) :
    Device.canon d a = Device.canon defaultDevice a := by
  unfold Device.canon; rw [kindAt_default d h]

end Sys2Proof.Machine
end

