-- ==== Sys2Proof/Laws/Step.lean ====
section
/-! SUPPORT. The inversions of the step: where a next state comes from, and the parts of the invariant. -/

namespace Sys2Proof.Machine

/-- A fetch that gives an instruction read an implemented, loaded word that decodes to it, or a reserved word on a device
that does not refuse it (rules R61, R98, R191). -/
theorem fetch_next {s : State} {i : Instr} (h : fetch s = .next i) :
    ∃ word, s.pc.toNat < s.device.progWords ∧ cellLookup s.pc.toNat s.prog = some word
      ∧ (decode word = .ok i ∨ (decode word = .error .reservedOpcode ∧ s.device.reservedMode = .asInstruction
          ∧ i = reservedActsAs word)) := by
  unfold fetch at h
  split at h
  · cases h
  · split at h
    · cases h
    · split at h
      · cases h; exact ⟨_, by omega, by assumption, .inl (by assumption)⟩
      · split at h <;> cases h
        exact ⟨_, by omega, by assumption, .inr ⟨by assumption, by assumption, rfl⟩⟩

/-- A reserved word acts only as an instruction that words encode (rules R97, R187, R191). -/
theorem reservedActsAs_wellFormed (word : OpWord) : (reservedActsAs word).wellFormed = true := by
  unfold reservedActsAs
  split
  · assumption
  · rfl

/-- A next state comes from a rest, from an interrupt entry, or from the fetched instruction (rule R211). -/
theorem step_next_cases {s t : State} (h : step s = .next t) :
    turn s = .rest t
    ∨ (∃ u, turn s = .interrupt u ∧ enterInterrupt u = .next t)
    ∨ (∃ u i, turn s = .run u ∧ fetch u = .next i ∧ exec i u = .next t) := by
  unfold step at h
  split at h
  · cases h; exact .inl ‹_›
  · exact .inr (.inl ⟨_, ‹_›, h⟩)
  · split at h
    · exact .inr (.inr ⟨_, _, ‹_›, ‹_›, h⟩)
    · cases h
    · cases h

/-- An interrupt entry that happens is a push, GIE cleared and a jump (rule R196). -/
theorem enterInterrupt_next {s t : State} (h : enterInterrupt s = .next t) :
    t = State.jump { pushSlot s s.pc with intcon := setBit s.intcon bitGIE false } s.device.intVector := by
  unfold enterInterrupt at h
  rcases push_cases s s.pc with ⟨e, _⟩ | ⟨e, _⟩ <;> rw [e] at h <;> cases h
  rfl

/-- A return that happens goes to the top of the stack and removes it (rule R175). -/
theorem returnToTos_next {s t : State} (h : returnToTos s = .next t) : t = (popSlot s).jump (tos s) := by
  unfold returnToTos at h
  rcases pop_cases s with ⟨e, _⟩ | ⟨e, _⟩ <;> rw [e] at h <;> cases h
  rfl

/-- The parts of the invariant. -/
theorem wf_iff (s : State) : s.wf = true ↔
    Device.wf s.device = true ∧ Memory.wf s.device.dataAddrBits s.mem = true
    ∧ cellsCanonical unlistedPort s.device.furtherPorts s.furtherPorts = true ∧ keysRise none 8192 s.prog = true
    ∧ cellsCanonical unlistedEntry s.device.stackDepth s.stack = true ∧ s.stackPtr < s.device.stackDepth
    ∧ s.stackLive ≤ s.device.stackDepth ∧ s.pclath &&& ~~~s.device.pclathMask = 0#8 ∧ s.t0Inhibit ≤ 3 := by
  simp [State.wf, Bool.and_eq_true, and_assoc]

/-- OPTION and TRIS name their registers or nothing on a device that is well formed (rules R186, R187). -/
theorem wf_targets {d : Device} (h : Device.wf d = true) :
    (Device.kindAt d d.optionTarget = .optionReg ∨ Device.kindAt d d.optionTarget = .unimplemented)
    ∧ (Device.kindAt d d.tris5Target = .tris .a ∨ Device.kindAt d d.tris5Target = .unimplemented)
    ∧ (Device.kindAt d d.tris6Target = .tris .b ∨ Device.kindAt d d.tris6Target = .unimplemented)
    ∧ (Device.kindAt d d.tris7Target = .tris .c ∨ Device.kindAt d d.tris7Target = .unimplemented) := by
  simp only [Device.wf, Bool.and_eq_true, Bool.or_eq_true, beq_iff_eq] at h
  exact ⟨h.1.1.1.2, h.1.1.2, h.1.2, h.2⟩

/-- A row that the map gives an address is one the rules describe on a well-formed device (rules R7, R64). -/
theorem wf_kindAt {d : Device} (h : Device.wf d = true) (a : DAddr) : Device.rowWf d (Device.kindAt d a) = true := by
  have hall : d.dataMap.all (fun r => Device.rowWf d r.2) = true := by
    simp only [Device.wf, Bool.and_eq_true] at h
    exact h.1.1.1.1.2
  have key : ∀ l : List (Nat × DataKind), l.all (fun r => Device.rowWf d r.2) = true →
      Device.rowWf d (mapLookup a l) = true := by
    intro l
    induction l with
    | nil => intro _; rfl
    | cons r rest ih =>
      intro hl
      rw [List.all_cons, Bool.and_eq_true] at hl
      unfold mapLookup
      split_ifs
      · exact hl.1
      · exact ih hl.2
  exact key _ hall

/-- The location an operand names lies in the data address space, and is no mirror (rules R62 to R64). -/
theorem wf_fileTarget {s : State} (h : Device.wf s.device = true) {f : BitVec 7} {a : DAddr}
    (ha : fileTarget s f = some a) : a < 2 ^ s.device.dataAddrBits ∧ ∀ b, Device.kindAt s.device a ≠ .mirror b := by
  have key : ∀ c < 2 ^ s.device.dataAddrBits, Device.canon s.device c < 2 ^ s.device.dataAddrBits
      ∧ ∀ b, Device.kindAt s.device (Device.canon s.device c) ≠ .mirror b := by
    intro c hc
    unfold Device.canon
    have hw := wf_kindAt h c
    split
    · rename_i b hk
      rw [hk] at hw
      simp only [Device.rowWf, Bool.and_eq_true, decide_eq_true_eq] at hw
      refine ⟨hw.1, fun e he => ?_⟩
      rw [he] at hw
      exact absurd hw.2 (by simp)
    · rename_i hk; exact ⟨hc, hk⟩
  have hp : 0 < 2 ^ s.device.dataAddrBits := Nat.two_pow_pos _
  unfold fileTarget at ha
  dsimp only at ha
  split_ifs at ha
  · cases ha; exact key _ (Nat.mod_lt _ hp)
  · cases ha; exact key _ (Nat.mod_lt _ hp)

end Sys2Proof.Machine
end

