-- ==== Sys2Proof/Tests/Slice0.lean ====
section
/-! SUPPORT. The model's own tests: words written out from the opcode map, one-step runs whose expected results are the
vectors of spec/95_test_vectors.md, and a witness for every statement that has hypotheses. -/

namespace Sys2Proof.Tests

open Sys2Proof.Machine

/-! ## Well-formedness: the one operand check, and each term it refuses (rules R96, R187) -/

theorem test_tris_terms_refused :
    Instr.wellFormed (.tris 0#3) = false ∧ Instr.wellFormed (.tris 1#3) = false ∧ Instr.wellFormed (.tris 2#3) = false
    ∧ Instr.wellFormed (.tris 3#3) = false ∧ Instr.wellFormed (.tris 4#3) = false := by decide

theorem test_tris_terms_accepted :
    Instr.wellFormed (.tris 5#3) = true ∧ Instr.wellFormed (.tris 6#3) = true ∧ Instr.wellFormed (.tris 7#3) = true := by
  decide

/-! ## Decoding: a word of every instruction, bit by bit from the opcode map (rule R98) -/

theorem test_decode_addwf : decode 0b00_0111_1_0100000#14 = .ok (.addwf 0x20#7 .f) := by rfl
theorem test_decode_andwf : decode 0b00_0101_0_1111111#14 = .ok (.andwf 0x7F#7 .w) := by rfl
theorem test_decode_clrf : decode 0b00_0001_1_0000001#14 = .ok (.clrf 0x01#7) := by rfl
theorem test_decode_clrw : decode 0b00_0001_0_1010101#14 = .ok (.clrw) := by rfl
theorem test_decode_comf : decode 0b00_1001_1_0000011#14 = .ok (.comf 0x03#7 .f) := by rfl
theorem test_decode_decf : decode 0b00_0011_0_0100001#14 = .ok (.decf 0x21#7 .w) := by rfl
theorem test_decode_decfsz : decode 0b00_1011_1_1000000#14 = .ok (.decfsz 0x40#7 .f) := by rfl
theorem test_decode_incf : decode 0b00_1010_0_0001010#14 = .ok (.incf 0x0A#7 .w) := by rfl
theorem test_decode_incfsz : decode 0b00_1111_1_0100000#14 = .ok (.incfsz 0x20#7 .f) := by rfl
theorem test_decode_iorwf : decode 0b00_0100_0_0010000#14 = .ok (.iorwf 0x10#7 .w) := by rfl
theorem test_decode_movf : decode 0b00_1000_1_0000100#14 = .ok (.movf 0x04#7 .f) := by rfl
theorem test_decode_movwf : decode 0b00_0000_1_0000010#14 = .ok (.movwf 0x02#7) := by rfl
theorem test_decode_nop : decode 0b00_0000_0_1100000#14 = .ok (.nop) := by rfl
theorem test_decode_rlf : decode 0b00_1101_1_0101010#14 = .ok (.rlf 0x2A#7 .f) := by rfl
theorem test_decode_rrf : decode 0b00_1100_0_0101010#14 = .ok (.rrf 0x2A#7 .w) := by rfl
theorem test_decode_subwf : decode 0b00_0010_1_0100000#14 = .ok (.subwf 0x20#7 .f) := by rfl
theorem test_decode_swapf : decode 0b00_1110_0_0100000#14 = .ok (.swapf 0x20#7 .w) := by rfl
theorem test_decode_xorwf : decode 0b00_0110_1_1000001#14 = .ok (.xorwf 0x41#7 .f) := by rfl
theorem test_decode_bcf : decode 0b01_00_011_0000011#14 = .ok (.bcf 0x03#7 3#3) := by rfl
theorem test_decode_bsf : decode 0b01_01_111_0001011#14 = .ok (.bsf 0x0B#7 7#3) := by rfl
theorem test_decode_btfsc : decode 0b01_10_000_0100000#14 = .ok (.btfsc 0x20#7 0#3) := by rfl
theorem test_decode_btfss : decode 0b01_11_100_0000100#14 = .ok (.btfss 0x04#7 4#3) := by rfl
theorem test_decode_addlw : decode 0b11_111_1_00001111#14 = .ok (.addlw 0x0F#8) := by rfl
theorem test_decode_andlw : decode 0b11_1001_01011111#14 = .ok (.andlw 0x5F#8) := by rfl
theorem test_decode_call : decode 0b10_0_11111111111#14 = .ok (.call 0x7FF#11) := by rfl
theorem test_decode_clrwdt : decode 0b00_0000_0110_0100#14 = .ok (.clrwdt) := by rfl
theorem test_decode_goto : decode 0b10_1_00101010101#14 = .ok (.goto 0x155#11) := by rfl
theorem test_decode_iorlw : decode 0b11_1000_00110101#14 = .ok (.iorlw 0x35#8) := by rfl
theorem test_decode_movlw : decode 0b11_00_11_10100101#14 = .ok (.movlw 0xA5#8) := by rfl
theorem test_decode_retfie : decode 0b00_0000_0000_1001#14 = .ok (.retfie) := by rfl
theorem test_decode_retlw : decode 0b11_01_10_10101011#14 = .ok (.retlw 0xAB#8) := by rfl
theorem test_decode_return : decode 0b00_0000_0000_1000#14 = .ok (.ret) := by rfl
theorem test_decode_sleep : decode 0b00_0000_0110_0011#14 = .ok (.sleep) := by rfl
theorem test_decode_sublw : decode 0b11_110_1_00000010#14 = .ok (.sublw 0x02#8) := by rfl
theorem test_decode_xorlw : decode 0b11_1010_10101111#14 = .ok (.xorlw 0xAF#8) := by rfl
theorem test_decode_option : decode 0b00_0000_0110_0010#14 = .ok (.option) := by rfl
theorem test_decode_tris_5 : decode 0b00_0000_01100_101#14 = .ok (.tris 5#3) := by rfl
theorem test_decode_tris_6 : decode 0b00_0000_01100_110#14 = .ok (.tris 6#3) := by rfl
theorem test_decode_tris_7 : decode 0b00_0000_01100_111#14 = .ok (.tris 7#3) := by rfl

theorem test_decode_reserved :
    decode 0x0001#14 = .error .reservedOpcode ∧ decode 0x0061#14 = .error .reservedOpcode
    ∧ decode 0x3B00#14 = .error .reservedOpcode := ⟨rfl, rfl, rfl⟩

theorem test_table_word : decodeTableWord 16 0x3EFF = some (.addlw 0xFF#8) ∧ decodeTableWord 16 0x0001 = none := by decide

/-! ## One-step runs -/

/-- The default start state of the vectors: STATUS = 18, PCLATH = 00, pc = 0100, stack empty. -/
def start : State := { State.reset with pc := 0x0100#13 }

/-- The start state with W, the register F at file address 20, and STATUS. -/
def given (w f st : Byte) : State :=
  { start with w := w, mem := Memory.write [] 0x020 f, status := st }

/-- What `g` says of the state after the instruction with this word, if it ends in a next state. -/
def after {α : Type} (word : OpWord) (s : State) (g : State → α) : Option α :=
  match decode word with
  | .ok i =>
    match exec i s with
    | .next t => some (g t)
    | _ => none
  | .error _ => none

/-- The refusal of the instruction with this word, if it is refused. -/
def refusal (word : OpWord) (s : State) : Option Refusal :=
  match decode word with
  | .ok i =>
    match exec i s with
    | .refused r => some r
    | _ => none
  | .error _ => none

/-- F, W and STATUS. -/
def fws (s : State) : Byte × Byte × Byte := (Memory.read s.mem 0x020, s.w, s.status)

/-- The pc and the cycles taken. -/
def pcCycles (s : State) : PAddr × Nat := (s.pc, s.cycles)

/-! ### Byte-oriented (parts A1 and B1) -/

theorem test_addwf_carries_and_zero :
    after 0x07A0#14 (given 0xFF#8 0x01#8 0x18#8) fws = some (0x00#8, 0xFF#8, 0x1F#8) := by decide
theorem test_addwf_digit_carry_alone :
    after 0x0720#14 (given 0x0F#8 0x01#8 0x18#8) fws = some (0x01#8, 0x10#8, 0x1A#8) := by decide
theorem test_andwf_zero : after 0x05A0#14 (given 0x0F#8 0xF0#8 0x18#8) fws = some (0x00#8, 0x0F#8, 0x1C#8) := by decide
theorem test_andwf_to_w : after 0x0520#14 (given 0x17#8 0xC2#8 0x18#8) fws = some (0xC2#8, 0x02#8, 0x18#8) := by decide
theorem test_clrf : after 0x01A0#14 (given 0x77#8 0x5A#8 0x18#8) fws = some (0x00#8, 0x77#8, 0x1C#8) := by decide
theorem test_clrf_status : after 0x0183#14 (given 0x00#8 0x00#8 0xFF#8) State.status = some 0x1C#8 := by decide
theorem test_clrw_dont_care_bits :
    after 0x017F#14 (given 0x77#8 0x5A#8 0x18#8) fws = some (0x5A#8, 0x00#8, 0x1C#8) := by decide
theorem test_comf : after 0x09A0#14 (given 0x00#8 0x00#8 0x18#8) fws = some (0xFF#8, 0x00#8, 0x18#8) := by decide
theorem test_comf_to_w : after 0x0920#14 (given 0x00#8 0x13#8 0x18#8) fws = some (0x13#8, 0xEC#8, 0x18#8) := by decide
theorem test_decf_wraps : after 0x03A0#14 (given 0x00#8 0x00#8 0x18#8) fws = some (0xFF#8, 0x00#8, 0x18#8) := by decide
theorem test_decf_zero : after 0x03A0#14 (given 0x00#8 0x01#8 0x18#8) fws = some (0x00#8, 0x00#8, 0x1C#8) := by decide
theorem test_decfsz_skips :
    after 0x0BA0#14 (given 0x00#8 0x01#8 0x18#8) (fun t => (fws t, pcCycles t)) = some ((0x00#8, 0x00#8, 0x18#8), (0x0102#13, 2)) := by decide
theorem test_decfsz_to_w :
    after 0x0B20#14 (given 0x99#8 0x00#8 0x18#8) (fun t => (fws t, pcCycles t)) = some ((0x00#8, 0xFF#8, 0x18#8), (0x0101#13, 1)) := by decide
theorem test_incf_wraps : after 0x0AA0#14 (given 0x00#8 0xFF#8 0x18#8) fws = some (0x00#8, 0x00#8, 0x1C#8) := by decide
theorem test_incf_to_w : after 0x0A20#14 (given 0x00#8 0x7F#8 0x18#8) fws = some (0x7F#8, 0x80#8, 0x18#8) := by decide
theorem test_incfsz_skips_to_w :
    after 0x0F20#14 (given 0x99#8 0xFF#8 0x18#8) (fun t => (fws t, pcCycles t)) = some ((0xFF#8, 0x00#8, 0x18#8), (0x0102#13, 2)) := by decide
theorem test_incfsz_goes_on :
    after 0x0FA0#14 (given 0x00#8 0x00#8 0x18#8) (fun t => (fws t, pcCycles t)) = some ((0x01#8, 0x00#8, 0x18#8), (0x0101#13, 1)) := by decide
theorem test_iorwf_zero : after 0x04A0#14 (given 0x00#8 0x00#8 0x18#8) fws = some (0x00#8, 0x00#8, 0x1C#8) := by decide
theorem test_iorwf_to_w : after 0x0420#14 (given 0x91#8 0x13#8 0x18#8) fws = some (0x13#8, 0x93#8, 0x18#8) := by decide
theorem test_movf_test_for_zero :
    after 0x08A0#14 (given 0x55#8 0x00#8 0x18#8) fws = some (0x00#8, 0x55#8, 0x1C#8) := by decide
theorem test_movf_pcl :
    after 0x0802#14 ({ given 0x55#8 0x00#8 0x18#8 with pc := 0x12FF#13 }) (fun t => (t.w, t.status, t.pc)) = some (0x00#8, 0x1C#8, 0x1300#13) := by decide
theorem test_movwf : after 0x00A0#14 (given 0x4F#8 0x00#8 0x1C#8) fws = some (0x4F#8, 0x4F#8, 0x1C#8) := by decide
theorem test_movwf_pcl :
    after 0x0082#14 ({ start with w := 0x34#8, pclath := 0x1F#8 }) pcCycles = some (0x1F34#13, 2) := by decide
theorem test_nop_dont_care_bits :
    after 0x0060#14 (given 0x01#8 0x02#8 0x1F#8) fws = some (0x02#8, 0x01#8, 0x1F#8) := by decide
theorem test_nop_wraps : after 0x0000#14 ({ start with pc := 0x1FFF#13 }) pcCycles = some (0x0000#13, 1) := by decide
theorem test_rlf_bit7_to_c :
    after 0x0DA0#14 (given 0x00#8 0x80#8 0x18#8) fws = some (0x00#8, 0x00#8, 0x19#8) := by decide
theorem test_rlf_c_to_bit0 :
    after 0x0DA0#14 (given 0x00#8 0x00#8 0x19#8) fws = some (0x01#8, 0x00#8, 0x18#8) := by decide
theorem test_rrf_bit0_to_c :
    after 0x0CA0#14 (given 0x00#8 0x01#8 0x18#8) fws = some (0x00#8, 0x00#8, 0x19#8) := by decide
theorem test_rrf_c_to_bit7 :
    after 0x0C20#14 (given 0x00#8 0x00#8 0x19#8) fws = some (0x00#8, 0x80#8, 0x18#8) := by decide
theorem test_subwf_nibble_borrow :
    after 0x02A0#14 (given 0x01#8 0x10#8 0x18#8) fws = some (0x0F#8, 0x01#8, 0x19#8) := by decide
theorem test_subwf_is_f_minus_w :
    after 0x0220#14 (given 0xFF#8 0x80#8 0x18#8) fws = some (0x80#8, 0x81#8, 0x18#8) := by decide
theorem test_swapf_to_w : after 0x0E20#14 (given 0x00#8 0xF0#8 0x18#8) fws = some (0xF0#8, 0x0F#8, 0x18#8) := by decide
theorem test_swapf : after 0x0EA0#14 (given 0x00#8 0xA5#8 0x18#8) fws = some (0x5A#8, 0x00#8, 0x18#8) := by decide
theorem test_xorwf_zero_to_w :
    after 0x0620#14 (given 0xAA#8 0xAA#8 0x18#8) fws = some (0xAA#8, 0x00#8, 0x1C#8) := by decide
theorem test_xorwf : after 0x06A0#14 (given 0xB5#8 0xAF#8 0x18#8) fws = some (0x1A#8, 0xB5#8, 0x18#8) := by decide

/-! ### Bit-oriented (part B3, B2) -/

theorem test_bcf_bit7 : after 0x13A0#14 (given 0x00#8 0xFF#8 0x18#8) fws = some (0x7F#8, 0x00#8, 0x18#8) := by decide
theorem test_bcf_status_z : after 0x1103#14 (given 0x00#8 0x00#8 0x1C#8) State.status = some 0x18#8 := by decide
theorem test_bsf_bit5 : after 0x16A0#14 (given 0x00#8 0x00#8 0x18#8) fws = some (0x20#8, 0x00#8, 0x18#8) := by decide
theorem test_bsf_pcl : after 0x1402#14 (start) pcCycles = some (0x0001#13, 2) := by decide
theorem test_btfsc_skip_wraps :
    after 0x1803#14 ({ start with pc := 0x1FFE#13 }) pcCycles = some (0x0000#13, 2) := by decide
theorem test_btfsc_goes_on : after 0x1BA0#14 (given 0x00#8 0x80#8 0x18#8) pcCycles = some (0x0101#13, 1) := by decide
theorem test_btfss_skips : after 0x1FA0#14 (given 0x00#8 0x80#8 0x18#8) pcCycles = some (0x0102#13, 2) := by decide
theorem test_btfss_goes_on : after 0x1FA0#14 (given 0x00#8 0x7F#8 0x18#8) pcCycles = some (0x0101#13, 1) := by decide

/-! ### Literal (parts A3, B4) -/

theorem test_addlw_all_flags :
    after 0x3EFF#14 (given 0x01#8 0x00#8 0x18#8) (fun t => (t.w, t.status)) = some (0x00#8, 0x1F#8) := by decide
theorem test_addlw_dont_care_bit :
    after 0x3F0F#14 (given 0x01#8 0x00#8 0x18#8) (fun t => (t.w, t.status)) = some (0x10#8, 0x1A#8) := by decide
theorem test_andlw_zero :
    after 0x390F#14 (given 0xF0#8 0x00#8 0x18#8) (fun t => (t.w, t.status)) = some (0x00#8, 0x1C#8) := by decide
theorem test_iorlw :
    after 0x3835#14 (given 0x9A#8 0x00#8 0x18#8) (fun t => (t.w, t.status)) = some (0xBF#8, 0x18#8) := by decide
theorem test_iorlw_zero :
    after 0x3800#14 (given 0x00#8 0x00#8 0x18#8) (fun t => (t.w, t.status)) = some (0x00#8, 0x1C#8) := by decide
theorem test_movlw_dont_care_bits :
    after 0x33A5#14 (given 0x55#8 0x00#8 0x18#8) (fun t => (t.w, t.status)) = some (0xA5#8, 0x18#8) := by decide
theorem test_movlw_leaves_z :
    after 0x3000#14 (given 0x55#8 0x00#8 0x18#8) (fun t => (t.w, t.status)) = some (0x00#8, 0x18#8) := by decide
theorem test_sublw_positive :
    after 0x3C02#14 (given 0x01#8 0x00#8 0x18#8) (fun t => (t.w, t.status)) = some (0x01#8, 0x1B#8) := by decide
theorem test_sublw_borrow :
    after 0x3C00#14 (given 0x01#8 0x00#8 0x18#8) (fun t => (t.w, t.status)) = some (0xFF#8, 0x18#8) := by decide
theorem test_xorlw :
    after 0x3AAF#14 (given 0xB5#8 0x00#8 0x18#8) (fun t => (t.w, t.status)) = some (0x1A#8, 0x18#8) := by decide
theorem test_xorlw_zero :
    after 0x3AFF#14 (given 0xFF#8 0x00#8 0x18#8) (fun t => (t.w, t.status)) = some (0x00#8, 0x1C#8) := by decide

/-! ### Control, OPTION, TRIS (part B5) -/

/-- The start state with one entry on the stack. -/
def withEntry (v : PAddr) : State := pushSlot start v

theorem test_call_page :
    after 0x27FF#14 ({ start with pc := 0x0123#13, pclath := 0x18#8 }) (fun t => (pcCycles t, tos t)) = some ((0x1FFF#13, 2), 0x0124#13) := by decide
theorem test_call_full : refusal 0x2000#14 { start with stackLive := 8 } = some .stackBounds := by decide
theorem test_goto_page :
    after 0x2955#14 ({ start with pc := 0x1FFF#13, pclath := 0x0F#8 }) pcCycles = some (0x0955#13, 2) := by decide
theorem test_retlw :
    after 0x34AB#14 (withEntry 0x0456#13) (fun t => (t.w, pcCycles t, t.stackLive)) = some (0xAB#8, (0x0456#13, 2), 0) := by decide
theorem test_return :
    after 0x0008#14 (withEntry 0x0456#13) (fun t => (pcCycles t, t.stackLive)) = some ((0x0456#13, 2), 0) := by decide
theorem test_return_empty : refusal 0x0008#14 start = some .stackBounds := by decide
theorem test_retfie :
    after 0x0009#14 ({ withEntry 0x0456#13 with intcon := 0x10#8 }) (fun t => (pcCycles t, t.intcon)) = some ((0x0456#13, 2), 0x90#8) := by decide
theorem test_clrwdt :
    after 0x0064#14 ({ start with status := 0x00#8, wdt := 9, prescaler := 0x55#8, optionReg := 0xFF#8 }) (fun t => (t.status, t.wdt, t.prescaler)) = some (0x18#8, 0, 0x00#8) := by decide
theorem test_sleep :
    after 0x0063#14 ({ start with status := 0x07#8 }) (fun t => (t.status, t.sleeping, t.pc)) = some (0x17#8, true, 0x0101#13) := by decide
theorem test_option_any_bank :
    after 0x0062#14 ({ start with w := 0x4F#8, status := 0x58#8 }) State.optionReg = some 0x4F#8 := by decide
theorem test_tris_6 :
    after 0x0066#14 ({ start with w := 0xF0#8 }) (fun t => (t.portA.tris, t.portB.tris)) = some (0xFF#8, 0xF0#8) := by decide
theorem test_decfsz_pcl : refusal 0x0B82#14 start = some .skipWithPclDest := by decide

/-! ### Special registers as operands (part B2) -/

theorem test_addwf_status : after 0x0783#14 (given 0xFF#8 0x00#8 0x18#8) State.status = some 0x1B#8 := by decide
theorem test_addwf_pcl_carry_stays_in_pcl :
    after 0x0782#14 ({ given 0x10#8 0x00#8 0x18#8 with pc := 0x08F6#13, pclath := 0x08#8 }) (fun t => (pcCycles t, t.status)) = some ((0x0807#13, 2), 0x19#8) := by decide
theorem test_clrf_indf :
    after 0x0180#14 ({ given 0x00#8 0xA5#8 0x18#8 with fsr := 0x20#8 }) fws = some (0x00#8, 0x00#8, 0x1C#8) := by decide
theorem test_clrf_indf_of_indf :
    after 0x0180#14 (given 0x00#8 0xA5#8 0x18#8) fws = some (0xA5#8, 0x00#8, 0x1C#8) := by decide
theorem test_movwf_option_reg : after 0x0081#14 (given 0x4F#8 0x00#8 0x38#8) State.optionReg = some 0x4F#8 := by decide
theorem test_incf_port :
    after 0x0A86#14 ({ start with portB := { latch := 0xFF#8, tris := 0xFF#8, pins := some ⟨0x0F#8, 0x00#8⟩ } }) (fun t => (t.portB.latch, t.status)) = some (0x10#8, 0x18#8) := by decide

/-! ### Interrupts, resets, sleep, Timer0 (part B6 and rules R203, R205, R209, R210) -/

/-- The state after one step from `s`, as far as `g` says. -/
def stepped {α : Type} (s : State) (g : State → α) : Option α :=
  match step s with
  | .next t => some (g t)
  | _ => none

/-- A state at which Timer0's interrupt is due. -/
def pending : State :=
  { start with pc := 0x0234#13, intcon := 0xA4#8, pclath := 0x18#8, inputs := [{ hold := some false }] }

theorem test_interrupt_entry :
    stepped pending (fun t => (pcCycles t, t.intcon, tos t)) = some ((0x0004#13, 2), 0x24#8, 0x0234#13) := by decide
theorem test_no_entry_without_gie :
    stepped ({ pending with intcon := 0x24#8 }.withFetchWord 16 0x0000) (fun t => (t.pc, t.intcon))
      = some (0x0235#13, 0x24#8) := by decide
theorem test_no_entry_without_enable :
    stepped { pending with intcon := 0x84#8, prog := [(0x0234, 0x0000#14)] } (fun t => (t.pc, t.intcon))
      = some (0x0235#13, 0x84#8) := by decide
theorem test_timer0_rolls_over :
    stepped ({ start with tmr0 := 0xFF#8, optionReg := 0x08#8, elapsed := 1 }.withFetchWord 16 0x0000)
      (fun t => (t.tmr0, t.intcon)) = some (0x00#8, 0x04#8) := by decide
theorem test_watchdog_reset :
    stepped { start with status := 0x7F#8, inputs := [{ wdtTimeout := true }] } (fun t => (t.pc, t.status))
      = some (0x0000#13, 0x0F#8) := by decide
theorem test_watchdog_wakes :
    stepped { start with sleeping := true, status := 0x10#8, prog := [(0x0100, 0x0000#14)], inputs := [{ wdtTimeout := true }] }
      (fun t => (t.pc, t.status, t.sleeping)) = some (0x0101#13, 0x00#8, false) := by decide
theorem test_sleeping_stays :
    stepped { start with sleeping := true } (fun t => (t.pc, t.sleeping)) = some (0x0100#13, true) := by decide

/-! ### The first instruction after reset -/

theorem test_fetch_word_after_reset :
    stepped (State.reset.withFetchWord 16 0x30A5) (fun t => (t.w, t.pc)) = some (0xA5#8, 0x0001#13) := by decide
theorem test_reserved_word_after_reset :
    (match step (State.reset.withFetchWord 16 0x0001) with | .refused r => some r | _ => none)
      = some .reservedOpcode := by decide
theorem test_nothing_loaded :
    (match step State.reset with | .fault r => some r | _ => none) = some .fetchUnloaded := by decide

/-! ## Witnesses: for every statement with hypotheses, a state and operands that meet all of them, and where a statement has
several clauses, one for each at a boundary value -/

theorem witness_DecodeOfEncode : Instr.wellFormed (.tris 5#3) = true ∧ Instr.wellFormed (.tris 7#3) = true := by decide

theorem witness_EncodeOfDecodeIsCanonical :
    decode 0x3FFF#14 = .ok (.addlw 0xFF#8) ∧ encode (.addlw 0xFF#8) = 0x3EFF#14 ∧ canonicalWord 0x3FFF#14 = 0x3EFF#14 := by
  exact ⟨rfl, rfl, rfl⟩

/-- A NOP at the last program address. -/
def lastNop : State := { start with pc := 0x1FFF#13 }.withFetchWord 16 0x0000

theorem witness_StepRunsTheDecodedInstruction :
    turn lastNop = .run (applyInput lastNop lastNop.input) ∧ lastNop.pc.toNat < lastNop.device.progWords
    ∧ cellLookup lastNop.pc.toNat lastNop.prog = some 0x0000#14 ∧ decode 0x0000#14 = .ok .nop :=
  ⟨rfl, by decide, rfl, rfl⟩

theorem witness_QuietBoundaryOnlyRunsTimer0 :
    start.quiet = true ∧ start.sleeping = false ∧ start.gie = false ∧ start.elapsed ≤ start.t0Inhibit := by decide

theorem witness_QuietBoundaryOnlyRunsTimer0_enabled :
    ({ start with intcon := 0x84#8 } : State).quiet = true ∧ ({ start with intcon := 0x84#8 } : State).sleeping = false
    ∧ interruptRequest (applyInput { start with intcon := 0x84#8 } {}) = false := by decide

/-- The start state on a device with 0x100 program words: the pc is the first unimplemented address. -/
def shortDevice : State := { start with device := { defaultDevice with progWords := 0x0100 } }

theorem witness_FetchRefusals_unimplemented :
    turn shortDevice = .run (applyInput shortDevice shortDevice.input)
    ∧ shortDevice.device.progWords ≤ (applyInput shortDevice shortDevice.input).pc.toNat := ⟨rfl, by decide⟩

/-- A reserved word at the last program address. -/
def lastReserved : State := { start with pc := 0x1FFF#13 }.withFetchWord 16 0x3B00

theorem witness_FetchRefusals_reserved :
    turn lastReserved = .run (applyInput lastReserved lastReserved.input)
    ∧ (applyInput lastReserved lastReserved.input).pc.toNat < (applyInput lastReserved lastReserved.input).device.progWords
    ∧ cellLookup (applyInput lastReserved lastReserved.input).pc.toNat (applyInput lastReserved lastReserved.input).prog
        = some 0x3B00#14
    ∧ decode 0x3B00#14 = .error .reservedOpcode ∧ (applyInput lastReserved lastReserved.input).device.reservedMode = .refuse :=
  ⟨rfl, by decide, rfl, rfl, rfl⟩

theorem witness_DecfszIncfszResult : namesPcl start 0x20#7 = false ∧ namesPcl start 0x7F#7 = false := by decide

theorem witness_SkipWithPclDestinationIsRefused :
    fileTarget start 0x02#7 = some 0x002 ∧ Device.kindAt start.device 0x002 = .pcl := by decide

/-- The start state with room for one entry more. -/
def almostFull : State := { start with stackLive := 7, stackPtr := 7 }

theorem witness_CallResult : canPush almostFull = true ∧ almostFull.stackPtr < almostFull.device.stackDepth := by decide

/-- The start state with a full stack that wraps. -/
def circularFull : State := { start with device := { defaultDevice with stackMode := .circular }, stackLive := 8 }

theorem witness_CallResult_circular :
    canPush circularFull = true ∧ circularFull.stackPtr < circularFull.device.stackDepth := by decide

theorem witness_ReturnsResult : canPop (withEntry 0x0456#13) = true ∧ canPop { circularFull with stackLive := 0 } = true := by
  decide

theorem witness_StackBoundsRefusals_full :
    ({ start with stackLive := 8 } : State).device.stackMode = .fault
    ∧ ({ start with stackLive := 8 } : State).device.stackDepth ≤ ({ start with stackLive := 8 } : State).stackLive := by
  decide

theorem witness_StackBoundsRefusals_empty : start.device.stackMode = .fault ∧ start.stackLive = 0 := by decide

theorem witness_CallThenReturn :
    almostFull.wf = true ∧ almostFull.stackLive < almostFull.device.stackDepth ∧ 0 < almostFull.stackLive
    ∧ ∃ t, exec (.call 0x7FF#11) almostFull = .next t := ⟨by decide, by decide, by decide, _, rfl⟩

/-- A device without the OPTION and TRIS registers. -/
def bareDevice : Device :=
  { defaultDevice with
    dataMap := (0x1FF, .unimplemented) :: defaultMap
    optionTarget := 0x1FF, tris5Target := 0x1FF, tris6Target := 0x1FF, tris7Target := 0x1FF }

theorem witness_OptionResult :
    Device.wf defaultDevice = true ∧ Device.kindAt defaultDevice defaultDevice.optionTarget = .optionReg
    ∧ Device.wf bareDevice = true ∧ Device.kindAt bareDevice bareDevice.optionTarget = .unimplemented := by decide

theorem witness_TrisResult :
    Device.wf defaultDevice = true ∧ Device.wf bareDevice = true
    ∧ Device.kindAt defaultDevice defaultDevice.tris7Target = .tris .c
    ∧ Device.kindAt bareDevice bareDevice.tris7Target = .unimplemented ∧ Instr.wellFormed (.tris 4#3) = false := by decide

theorem witness_PclReadsNextAddress : namesPcl start 0x02#7 = true ∧ namesPcl { start with fsr := 0x82#8 } 0x00#7 = true := by
  decide

theorem witness_CoreRegistersInEveryBank : Device.defaultAddressing start.device := ⟨rfl, rfl, rfl, rfl⟩

/-- The start state with this FSR and these STATUS bits. -/
def viaFsr (v : Byte) (st : Byte := 0x18#8) : State := { start with fsr := v, status := st }

theorem witness_IndirectAddressing :
    Device.defaultAddressing (viaFsr 0x05#8).device ∧ (viaFsr 0x05#8).fsr.toNat % 128 ≠ 4
    ∧ ∃ t, exec (.movwf 0x00#7) (viaFsr 0x05#8) = .next t := ⟨⟨rfl, rfl, rfl, rfl⟩, by decide, _, rfl⟩

/-- What INDF names at the bounds of the ranges of FSR, with IRP = 0 and 1. -/
theorem test_indirect_targets :
    [0x00#8, 0x01#8, 0x02#8, 0x1F#8, 0x7F#8, 0x80#8, 0x81#8, 0x84#8, 0xFF#8].map (fun v => fileTarget (viaFsr v) 0x00#7)
      = [none, some 0x01, some 0x02, some 0x1F, some 0x7F, none, some 0x81, some 0x04, some 0xFF]
    ∧ [0x00#8, 0x01#8, 0x85#8, 0x8B#8].map (fun v => fileTarget (viaFsr v 0x98#8) 0x00#7)
      = [none, some 0x101, some 0x185, some 0x0B] := by decide

theorem witness_WrittenByteReadsBack :
    fileTarget (viaFsr 0x20#8) 0x20#7 = some 0x020 ∧ Device.kindAt (viaFsr 0x20#8).device 0x020 = .general
    ∧ ∃ t, exec (.movwf 0x20#7) (viaFsr 0x20#8) = .next t ∧ fileTarget t 0x20#7 = some 0x020
        ∧ fileTarget t 0x00#7 = some 0x020 :=
  ⟨by decide, by decide, _, rfl, by decide, by decide⟩

theorem witness_ClrfStatusKeepsToAndPd :
    fileTarget start 0x03#7 = some 0x003 ∧ Device.kindAt start.device 0x003 = .status
    ∧ start.device.statusWriteMask = 0xE7#8 := by decide

/-- The start state on a device that lets a data write reach every STATUS bit. -/
def openMask : State := { start with device := { defaultDevice with statusWriteMask := 0xFF#8 } }

theorem witness_ClrfStatusKeepsToAndPd_openMask :
    fileTarget openMask 0x03#7 = some 0x003 ∧ Device.kindAt openMask.device 0x003 = .status
    ∧ openMask.device.statusWriteMask = 0xFF#8 := by decide

/-- The start state with port B's pins known, every output overdriven. -/
def drivenB : State := { start with portB := { start.portB with tris := 0x00#8, pins := some ⟨0x0F#8, 0xFF#8⟩ } }

theorem witness_PortReadsPinsAndRewritesLatch :
    fileTarget drivenB 0x06#7 = some 0x006 ∧ Device.kindAt drivenB.device 0x006 = .port .b
    ∧ (drivenB.port .b).pins = some ⟨0x0F#8, 0xFF#8⟩ := by decide

/-- The start state on a device with one further port, its latch register at 0x08 and its TRIS register at 0x88. -/
def fourthPort : State :=
  { start with
    w := 0x5A#8
    device := { defaultDevice with
      furtherPorts := 1, dataMap := (0x08, .port (.further 0)) :: (0x88, .tris (.further 0)) :: defaultMap } }

theorem witness_PortReadsPinsAndRewritesLatch_further :
    Device.wf fourthPort.device = true ∧ fileTarget fourthPort 0x08#7 = some 0x08
    ∧ Device.kindAt fourthPort.device 0x08 = .port (.further 0) := by decide

theorem test_further_port_latch :
    after 0x0088#14 fourthPort (fun t => ((t.port (.further 0)).latch, t.portA == start.portA)) = some (0x5A#8, true) := by
  decide

/-- A device of 8 address bits, its bank bit the lowest bit of the general-purpose register at 0x7F. -/
def ownSelect : State :=
  { start with
    mem := [(0x7F, 0x01#8)]
    device := { defaultDevice with dataAddrBits := 8, bankSelect := [.file 0x7F 0], irpSelect := [] } }

theorem test_bank_select_of_the_device : fileTarget ownSelect 0x20#7 = some 0xA0 ∧ fileTarget start 0x20#7 = some 0x20 := by
  decide

theorem witness_OnlyTheListedRefusals :
    Instr.wellFormed (.tris 5#3) = true ∧ refusal 0x2000#14 { start with stackLive := 8 } = some .stackBounds
    ∧ refusal 0x0B82#14 start = some .skipWithPclDest := by decide

theorem witness_OnlyTheListedInstructionsWriteW :
    (∃ t, exec (.addwf 0x20#7 .f) start = .next t) ∧ WritesW (.addwf 0x20#7 .f) = false := ⟨⟨_, rfl⟩, rfl⟩

theorem witness_OnlyTheListedInstructionsReadW :
    ReadsW (.movf 0x20#7 .w) = false ∧ WritesW (.movf 0x20#7 .w) = true ∧ ∃ t, exec (.movf 0x20#7 .w) start = .next t :=
  ⟨rfl, rfl, _, rfl⟩

theorem witness_PclathChangesOnlyByDataWrites :
    Device.wf (given 0x1F#8 0x00#8 0x18#8).device = true
    ∧ ∃ t, exec (.movwf 0x0A#7) (given 0x1F#8 0x00#8 0x18#8) = .next t ∧ t.pclath ≠ (given 0x1F#8 0x00#8 0x18#8).pclath :=
  ⟨by decide, _, rfl, by decide⟩

theorem witness_IntconChangesOnlyBySoftware :
    Device.wf (given 0x7F#8 0x00#8 0x18#8).device = true
    ∧ ∃ t, exec (.movwf 0x0B#7) (given 0x7F#8 0x00#8 0x18#8) = .next t ∧ t.intcon ≠ (given 0x7F#8 0x00#8 0x18#8).intcon :=
  ⟨by decide, _, rfl, by decide⟩

theorem witness_IntconChangesOnlyBySoftware_retfie :
    Device.wf (withEntry 0x0456#13).device = true
    ∧ ∃ t, exec .retfie (withEntry 0x0456#13) = .next t ∧ t.intcon ≠ (withEntry 0x0456#13).intcon :=
  ⟨by decide, _, rfl, by decide⟩

theorem witness_OnlyCallsAndReturnsUseTheStack :
    (∃ t, exec (.call 0x000#11) start = .next t ∧ t.stack ≠ start.stack ∧ t.stackLive ≠ start.stackLive)
    ∧ ∃ t, exec .ret (withEntry 0x0456#13) = .next t ∧ t.stackPtr ≠ (withEntry 0x0456#13).stackPtr :=
  ⟨⟨_, rfl, by decide, by decide⟩, _, rfl, by decide⟩

theorem witness_OnlySleepEntersSleep :
    (start.withFetchWord 16 0x0063).sleeping = false
    ∧ ∃ t, step (start.withFetchWord 16 0x0063) = .next t ∧ t.sleeping = true := ⟨rfl, _, rfl, rfl⟩

theorem witness_ProgramAndDeviceNeverChange : ∃ t, step lastNop = .next t := ⟨_, rfl⟩

theorem witness_NextPcIsOneOfTheListedCases :
    (∃ t, exec .nop start = .next t) ∧ (∃ t, exec (.btfsc 0x20#7 0#3) start = .next t)
    ∧ (∃ t, exec (.goto 0x7FF#11) start = .next t) ∧ (∃ t, exec .ret (withEntry 0x0456#13) = .next t)
    ∧ ∃ t, exec (.movwf 0x02#7) start = .next t :=
  ⟨⟨_, rfl⟩, ⟨_, rfl⟩, ⟨_, rfl⟩, ⟨_, rfl⟩, _, rfl⟩

theorem witness_InterruptEntryResult :
    canPush almostFull = true ∧ almostFull.stackPtr < almostFull.device.stackDepth := by decide

/-- The pending state with seven live entries, at the next boundary. -/
def pendingDeep : State := { pending with stackLive := 7, stackPtr := 7 }

theorem witness_RetfieUndoesInterruptEntry :
    pendingDeep.wf = true ∧ pendingDeep.gie = true ∧ pendingDeep.stackLive < pendingDeep.device.stackDepth
    ∧ ∃ t, enterInterrupt pendingDeep = .next t := ⟨by decide, by decide, by decide, _, rfl⟩

theorem witness_InterruptOnlyWhenEnabledAndPending : turn pending = .interrupt (applyInput pending pending.input) := rfl

theorem witness_DueInterruptIsTakenOrHeld :
    pending.sleeping = false ∧ pending.input.reset = none ∧ pending.input.wdtTimeout = false
    ∧ interruptDue (applyInput pending pending.input) = true ∧ pending.input.hold = some false := by decide

/-- The pending state whose environment leaves the interrupt for later. -/
def heldBack : State := { pending with inputs := [{ hold := some true }] }

theorem witness_DueInterruptIsTakenOrHeld_held :
    heldBack.sleeping = false ∧ heldBack.input.reset = none ∧ heldBack.input.wdtTimeout = false
    ∧ interruptDue (applyInput heldBack heldBack.input) = true ∧ heldBack.input.hold = some true := by decide

/-- A NOP at whose boundary the INT pin rises, as INTEDG selects, and an input pin of port B<7:4> falls. -/
def pinsMove : State :=
  { lastNop with
    portB := { lastNop.portB with pins := some ⟨0x80#8, 0x00#8⟩ }
    inputs := [{ intEdge := some .rising, pinsB := some ⟨0x00#8, 0x00#8⟩ }] }

theorem witness_BoundaryOnlySetsFlagBits :
    turn pending = .interrupt (applyInput pending pending.input) ∧ turn lastNop = .run (applyInput lastNop lastNop.input)
    ∧ turn pinsMove = .run (applyInput pinsMove pinsMove.input) := ⟨rfl, rfl, rfl⟩

theorem test_pins_set_intf_and_rbif : stepped pinsMove State.intcon = some 0x03#8 := by decide

/-- The start state on a device that resets T0IF and INTF to 0, OPTION_REG to 0x0F, TMR0's low half to 0x5, port A's latch
to 0xFF and one further port's latch to 0x3C, at whose boundary it is reset. -/
def ownResets (r : OutsideReset) : State :=
  { start with
    intcon := 0xFF#8
    tmr0 := 0xC3#8
    inputs := [{ reset := some r }]
    device := { defaultDevice with
      intconReset := ⟨0x7E#8, 0x00#8⟩, optionReset := ⟨0xFF#8, 0x0F#8⟩, tmr0Reset := ⟨0x0F#8, 0x05#8⟩, furtherPorts := 1
      portResets := [(.a, ⟨allOnes, allOnes⟩), (.further 0, ⟨⟨0xFF#8, 0x3C#8⟩, ⟨0x0F#8, 0x00#8⟩⟩)] } }

theorem test_reset_values_of_the_device :
    stepped (ownResets .external) (fun t => (t.intcon, t.optionReg, t.tmr0, t.portA.latch, t.port (.further 0)))
      = some (0x01#8, 0x0F#8, 0xC5#8, 0xFF#8, ⟨0x3C#8, 0xF0#8, none⟩) := by decide
theorem test_reset_values_of_the_device_after_power_on :
    stepped (ownResets .powerOn) (fun t => (t.intcon, t.optionReg, t.tmr0, t.portB.tris, t.port (.further 0)))
      = some (0x00#8, 0x0F#8, 0x05#8, 0xFF#8, ⟨0x3C#8, 0x00#8, none⟩) := by decide

theorem witness_ResetsAndTheirCause_values :
    (ownResets .external).input.reset ≠ none ∧ Device.wf (ownResets .external).device = true
    ∧ IsPort (ownResets .external).device (.further 0) ∧ IsPort (ownResets .external).device .a
    ∧ Device.portReset (ownResets .external).device .b = defaultPortReset
    ∧ start.device.optionReset = defaultDevice.optionReset :=
  ⟨by decide, by decide, Nat.zero_lt_one, trivial, by decide, rfl⟩

theorem witness_ResetsAndTheirCause_powerOn : ({ start with inputs := [{ reset := some .powerOn }] } : State).input.reset ≠ none := by
  decide

theorem witness_ResetsAndTheirCause_external :
    ({ start with inputs := [{ reset := some .external }] } : State).input.reset = some .external
    ∧ ({ start with inputs := [{ reset := some .external }] } : State).sleeping = false
    ∧ ({ start with sleeping := true, inputs := [{ reset := some .external }] } : State).input.reset = some .external := by
  decide

/-- The start state at whose boundary the watchdog times out. -/
def timesOut : State := { start with inputs := [{ wdtTimeout := true }] }

theorem witness_ResetsAndTheirCause_watchdog :
    timesOut.sleeping = false ∧ wdtFires (applyInput timesOut timesOut.input) timesOut.input = true
    ∧ timesOut.input.reset = none := by decide

theorem witness_NoWatchdogTimeoutBeforeItsPeriod_disabled :
    ({ start with device := { defaultDevice with wdtEnabled := false } } : State).sleeping = false
    ∧ ({ start with device := { defaultDevice with wdtEnabled := false } } : State).device.wdtEnabled = false := by decide

/-- The start state one cycle before the watchdog may time out. -/
def beforePeriod : State := { start with wdt := 4, device := { defaultDevice with wdtMinPeriod := 5 } }

theorem witness_NoWatchdogTimeoutBeforeItsPeriod :
    beforePeriod.sleeping = false ∧ beforePeriod.wdt < beforePeriod.device.wdtMinPeriod := by decide

/-- A core asleep one cycle after its SLEEP. -/
def fellAsleep : State := { start with sleeping := true, elapsed := 1 }

theorem witness_SleepingCoreKeepsItsState :
    ({ start with sleeping := true } : State).sleeping = true ∧ ({ start with sleeping := true } : State).quiet = true
    ∧ ({ start with sleeping := true } : State).elapsed = 0
    ∧ fellAsleep.sleeping = true ∧ fellAsleep.quiet = true ∧ fellAsleep.elapsed = 1 := by decide

/-- A sleeping core with the given INTCON, and what the environment does. -/
def asleep (intcon : Byte) (i : Input) : State := { start with sleeping := true, intcon := intcon, inputs := [i] }

theorem witness_WakeUpEvents_watchdog :
    (asleep 0x00#8 { wdtTimeout := true }).sleeping = true ∧ (asleep 0x00#8 { wdtTimeout := true }).input.reset = none
    ∧ wdtFires (applyInput (asleep 0x00#8 { wdtTimeout := true }) { wdtTimeout := true }) { wdtTimeout := true } = true := by
  decide

/-- A core asleep with INTE set at whose boundary the INT pin rises, as INTEDG selects; with or without a time-out. -/
def edgeComes (timeout : Bool) : State := asleep 0x90#8 { intEdge := some .rising, wdtTimeout := timeout }

theorem witness_WakeUpEvents_source :
    (edgeComes false).input.reset = none
    ∧ wdtFires (applyInput (edgeComes false) (edgeComes false).input) (edgeComes false).input = false
    ∧ SourceWakes (edgeComes false) := ⟨rfl, rfl, .inl ⟨rfl, rfl⟩⟩

theorem witness_WakeUpEvents_both :
    wdtFires (applyInput (edgeComes true) (edgeComes true).input) (edgeComes true).input = true
    ∧ SourceWakes (edgeComes true) := ⟨rfl, .inl ⟨rfl, rfl⟩⟩

theorem witness_WakeUpEvents_portB :
    SourceWakes { asleep 0x08#8 { pinsB := some ⟨0x10#8, 0x00#8⟩ } with portB := { start.portB with pins := some ⟨0x00#8, 0x00#8⟩ } } :=
  .inr (.inl ⟨rfl, rfl⟩)

theorem witness_WakeUpEvents_peripheral : SourceWakes (asleep 0x40#8 { peripheral := some true }) := .inr (.inr ⟨rfl, rfl⟩)

theorem witness_WakeUpEvents_none :
    wdtFires (applyInput (asleep 0x90#8 {}) (asleep 0x90#8 {}).input) (asleep 0x90#8 {}).input = false
    ∧ ¬ SourceWakes (asleep 0x90#8 {}) := ⟨rfl, by rintro (⟨-, h⟩ | ⟨h, -⟩ | ⟨h, -⟩) <;> exact absurd h (by decide)⟩

/-- The start state with this OPTION_REG. -/
def byInstructions (v : Byte) : State := { start with optionReg := v }

theorem witness_Timer0CountsCycles_prescaled :
    (byInstructions 0x00#8).optionReg.getLsbD 5 = false ∧ (byInstructions 0x00#8).t0Inhibit = 0
    ∧ (byInstructions 0x00#8).prescaler = 0#8 ∧ (byInstructions 0x00#8).optionReg.getLsbD 3 = false := by decide

theorem witness_Timer0CountsCycles_direct :
    (byInstructions 0x08#8).optionReg.getLsbD 5 = false ∧ (byInstructions 0x08#8).t0Inhibit = 0
    ∧ (byInstructions 0x08#8).prescaler = 0#8 ∧ (byInstructions 0x08#8).optionReg.getLsbD 3 = true := by decide

theorem witness_Timer0CountsCycles_external :
    (byInstructions 0x20#8).optionReg.getLsbD 5 = true ∧ (byInstructions 0x20#8).prescaler = 0#8
    ∧ (byInstructions 0x28#8).optionReg.getLsbD 5 = true ∧ (byInstructions 0x28#8).optionReg.getLsbD 3 = true := by decide

/-- Two cycles elapsed with a rising edge of T0CKI in each, the first of them the last one inhibited: one edge counts (R203). -/
theorem test_t0cki_edge_of_an_inhibited_cycle :
    (applyInput { byInstructions 0x28#8 with elapsed := 2, t0Inhibit := 1 } { t0cki := [(0, .rising), (1, .rising)] }).tmr0
      = 0x01#8
    ∧ CountedEdges { byInstructions 0x28#8 with elapsed := 2, t0Inhibit := 1 } [(0, .rising), (1, .rising)] = 1 := by decide

theorem witness_Timer0InhibitedAfterWrite :
    ∀ v ∈ [0x08#8, 0x28#8], fileTarget (byInstructions v) 0x01#7 = some 0x001
    ∧ Device.kindAt (byInstructions v).device 0x001 = .tmr0 ∧ (byInstructions v).elapsed = 0
    ∧ (byInstructions v).optionReg.getLsbD 3 = true
    ∧ after 0x0081#14 (byInstructions v) (fun t => (t.optionReg.getLsbD 5, t.tmr0)) = some (v == 0x28#8, 0x00#8) := by
  decide

theorem witness_StepKeepsWellFormed : lastNop.wf = true ∧ ∃ t, step lastNop = .next t := ⟨by decide, _, rfl⟩

/-! ## Memory keeps its form -/

theorem test_memory_write_keeps_form : Memory.wf 9 (Memory.write (Memory.write [] 0x1FF 0x01#8) 0x020 0x02#8) = true := by
  decide

theorem test_memory_write_of_zero_removes : Memory.write (Memory.write [] 0x020 0x02#8) 0x020 0x00#8 = [] := by decide

end Sys2Proof.Tests
end

section
/-! PROOFS. The working register and the stack: which instructions write W, read W and use the stack (rules R20, R34), and
how a return undoes a CALL and an interrupt entry (rules R171, R173, R175, R196, R199). -/

namespace Sys2Proof.Machine

/-! ## The forms in which an instruction ends -/

/-- What an instruction that ends leaves of the state `s`, one constructor per form of ending (rules R25, R120, R140, R160,
R170, R185); `x` is the STATUS byte that the flags leave. -/
inductive EndsIn (s : State) : Instr → State → Prop
  | loadedW {i : Instr} (v x : Byte) : WritesW i = true → EndsIn s i { s.loadW v with status := x }
  | wroteFile {i : Instr} (f : BitVec 7) (v x : Byte) :
      FileWritten i = some f → EndsIn s i { finishFile s f v with status := x }
  | skippedOnW {i : Instr} (v : Byte) (b : Bool) : WritesW i = true → EndsIn s i (skipIf { s with w := v } b)
  | skippedOnFile {i : Instr} (f : BitVec 7) (v : Byte) (b : Bool) :
      FileWritten i = some f → namesPcl s f = false → EndsIn s i (skipIf (regWrite s f v) b)
  | nop : EndsIn s .nop s.next
  | btfsc (f : BitVec 7) (b : BitVec 3) : EndsIn s (.btfsc f b) (skipIf s (!bitOf (regRead s f) b.toNat))
  | btfss (f : BitVec 7) (b : BitVec 3) : EndsIn s (.btfss f b) (skipIf s (bitOf (regRead s f) b.toNat))
  | goto (k : BitVec 11) : EndsIn s (.goto k) (s.jump (pageTarget s k))
  | call (k : BitVec 11) : EndsIn s (.call k) ((pushSlot s (s.pc + 1#13)).jump (pageTarget s k))
  | ret : EndsIn s .ret ((popSlot s).jump (tos s))
  | retlw (k : BitVec 8) : EndsIn s (.retlw k) (State.jump (popSlot { s with w := k }) (tos s))
  | retfie : EndsIn s .retfie (State.jump (popSlot { s with intcon := setBit s.intcon bitGIE true }) (tos s))
  | clrwdt : EndsIn s .clrwdt ((clearWdt s.next).setToPd true true)
  | sleep : EndsIn s .sleep { (clearWdt s.next).setToPd true false with sleeping := true }
  | option : EndsIn s .option (writeAt s s.device.optionTarget s.w).next
  | tris (f : BitVec 3) (a : DAddr) : trisTarget s.device f = some a → EndsIn s (.tris f) (writeAt s a s.w).next

/-- A result written to the destination, with any flags after it, is one of the forms (rule R120). -/
theorem EndsIn.dest {s : State} {i : Instr} (f : BitVec 7) (d : Dest) (v x : Byte)
    (hw : d = .w → WritesW i = true) (hf : d = .f → FileWritten i = some f) :
    EndsIn s i { finishDest s f d v with status := x } := by
  cases d with
  | w => exact .loadedW v x (hw rfl)
  | f => exact .wroteFile f v x (hf rfl)

/-- So is a result written to the destination by a skip form that ends (rule R140). -/
theorem EndsIn.skip {s t : State} {i : Instr} {f : BitVec 7} {d : Dest} {v : Byte} (h : finishSkip s f d v = .next t)
    (hw : d = .w → WritesW i = true) (hf : d = .f → FileWritten i = some f) : EndsIn s i t := by
  rcases finishSkip_cases s f d v with ⟨hd, e⟩ | ⟨hd, hp, e⟩ | ⟨_, _, e⟩ <;> rw [e] at h <;> cases h
  · exact .skippedOnW v _ (hw hd)
  · exact .skippedOnFile f v _ (hf hd) hp

/-- A CALL that ends pushed the return address and jumped (rule R171). -/
theorem execCall_next {k : BitVec 11} {s t : State} (h : execCall k s = .next t) :
    t = (pushSlot s (s.pc + 1#13)).jump (pageTarget s k) := by
  unfold execCall at h
  rcases push_cases s (s.pc + 1#13) with ⟨e, _⟩ | ⟨e, _⟩ <;> rw [e] at h <;> cases h
  rfl

/-- Every instruction that ends does so in the form listed for it. -/
theorem exec_endsIn {i : Instr} {s t : State} (h : exec i s = .next t) : EndsIn s i t := by
  cases i with
  | addwf f d | andwf f d | comf f d | decf f d | incf f d | iorwf f d | movf f d | rlf f d | rrf f d | subwf f d
  | swapf f d | xorwf f d =>
    cases h
    exact .dest f d _ _ (by rintro rfl; rfl) (by rintro rfl; rfl)
  | decfsz f d | incfsz f d => exact .skip h (by rintro rfl; rfl) (by rintro rfl; rfl)
  | clrf f | movwf f | bcf f b | bsf f b => cases h; exact .wroteFile f _ _ rfl
  | clrw | addlw k | andlw k | iorlw k | movlw k | sublw k | xorlw k => cases h; exact .loadedW _ _ rfl
  | nop => cases h; exact .nop
  | btfsc f b => cases h; exact .btfsc f b
  | btfss f b => cases h; exact .btfss f b
  | goto k => cases h; exact .goto k
  | call k => rw [execCall_next h]; exact .call k
  | ret => rw [returnToTos_next h]; exact .ret
  | retlw k => rw [returnToTos_next h]; exact .retlw k
  | retfie => rw [returnToTos_next h]; exact .retfie
  | clrwdt => cases h; exact .clrwdt
  | sleep => cases h; exact .sleep
  | option => cases h; exact .option
  | tris f =>
    change execTris f s = .next t at h
    unfold execTris at h
    split at h
    · cases h
    · cases h; exact .tris f _ ‹_›

/-! ## Who writes W, who uses the stack -/

/-- Settles O38: of the forms of ending only those of the listed instructions load W. -/
theorem onlyTheListedInstructionsWriteW : Obligations.OnlyTheListedInstructionsWriteW := by
  intro i s t h hw
  cases exec_endsIn h with
  | loadedW v x hi | skippedOnW v b hi => rw [hi] at hw; cases hw
  | retlw k => cases hw
  | _ => simp

/-- Settles O42: every form of ending but a push and a pop leaves slots, pointer and count. -/
theorem onlyCallsAndReturnsUseTheStack : Obligations.OnlyCallsAndReturnsUseTheStack := by
  intro i s t h hchange
  cases exec_endsIn h with
  | call k => exact .inl ⟨k, rfl⟩
  | ret => exact .inr (.inl rfl)
  | retfie => exact .inr (.inr (.inl rfl))
  | retlw k => exact .inr (.inr (.inr ⟨k, rfl⟩))
  | _ => simp at hchange

/-! ## What does not depend on W -/

/-- The state with another byte in W. -/
def State.setW (s : State) (x : Byte) : State := { s with w := x }

@[simp] theorem State.setW_device (s : State) (x : Byte) : (s.setW x).device = s.device := rfl

@[simp] theorem fileTarget_setW (s : State) (f : BitVec 7) (x : Byte) : fileTarget (s.setW x) f = fileTarget s f := rfl

@[simp] theorem namesPcl_setW (s : State) (f : BitVec 7) (x : Byte) : namesPcl (s.setW x) f = namesPcl s f := rfl

theorem writeAt_setW (s : State) (a : DAddr) (v x : Byte) : writeAt (s.setW x) a v = (writeAt s a v).setW x := by
  unfold writeAt
  rw [State.setW_device]
  cases Device.kindAt s.device a with
  | tris p | port p => cases p <;> rfl
  | _ => rfl

theorem regWrite_setW (s : State) (f : BitVec 7) (v x : Byte) : regWrite (s.setW x) f v = (regWrite s f v).setW x := by
  unfold regWrite
  rw [fileTarget_setW]
  cases fileTarget s f with
  | none => rfl
  | some a => exact writeAt_setW s a v x

theorem finishFile_setW (s : State) (f : BitVec 7) (v x : Byte) :
    finishFile (s.setW x) f v = (finishFile s f v).setW x := by
  unfold finishFile
  rw [namesPcl_setW, regWrite_setW]
  cases namesPcl s f <;> rfl

theorem finishFile_setZ_setW (s : State) (f : BitVec 7) (v r x : Byte) :
    (finishFile (s.setW x) f v).setZ r = ((finishFile s f v).setZ r).setW x :=
  congrArg (fun t : State => t.setZ r) (finishFile_setW s f v x)

theorem finishFile_setC_setW (s : State) (f : BitVec 7) (v : Byte) (c : Bool) (x : Byte) :
    (finishFile (s.setW x) f v).setC c = ((finishFile s f v).setC c).setW x :=
  congrArg (fun t : State => t.setC c) (finishFile_setW s f v x)

theorem skipIf_setW (s : State) (b : Bool) (x : Byte) : skipIf (s.setW x) b = (skipIf s b).setW x := by
  cases b <;> rfl

theorem push_setW (s : State) (v : PAddr) (x : Byte) : push (s.setW x) v = (push s v).map (·.setW x) :=
  (apply_ite (Option.map fun t : State => t.setW x) _ none (some (pushSlot s v))).symm

theorem pop_setW (s : State) (x : Byte) : pop (s.setW x) = (pop s).map (Prod.map id (·.setW x)) :=
  (apply_ite (Option.map (Prod.map id fun t : State => t.setW x)) _ none (some (tos s, popSlot s))).symm

theorem execCall_setW {k : BitVec 11} {s t : State} (x : Byte) (h : execCall k s = .next t) :
    execCall k (s.setW x) = .next (t.setW x) := by
  have hp : push (s.setW x) ((s.setW x).pc + 1#13) = (push s (s.pc + 1#13)).map (·.setW x) := push_setW s _ x
  unfold execCall at h ⊢
  rw [hp]
  cases e : push s (s.pc + 1#13) <;> rw [e] at h <;> cases h
  rfl

theorem returnToTos_setW {s t : State} (x : Byte) (h : returnToTos s = .next t) :
    returnToTos (s.setW x) = .next (t.setW x) := by
  unfold returnToTos at h ⊢
  rw [pop_setW]
  cases e : pop s <;> rw [e] at h <;> cases h
  rfl

/-- A skip form that ends and leaves W does the same to the file register from any W. -/
theorem finishSkip_file_setW {s t : State} {f : BitVec 7} {v : Byte} (x : Byte) (h : finishSkip s f .f v = .next t) :
    finishSkip (s.setW x) f .f v = .next (t.setW x) := by
  unfold finishSkip at h ⊢
  dsimp only at h ⊢
  rw [namesPcl_setW, regWrite_setW, skipIf_setW]
  split_ifs at h ⊢
  cases h
  rfl

/-- An instruction that writes W and does not read it has one outcome, whatever W holds (rule R20). -/
theorem exec_setW_of_writesW {i : Instr} (hr : ReadsW i = false) (hw : WritesW i = true) (s : State) (x : Byte) :
    exec i (s.setW x) = exec i s := by
  cases i with
  | clrw | movlw k | retlw k => rfl
  | comf f d | decf f d | decfsz f d | incf f d | incfsz f d | movf f d | rlf f d | rrf f d | swapf f d =>
    cases d with
    | w => rfl
    | f => cases hw
  | _ => simp [ReadsW, WritesW] at hr hw

/-- An instruction that neither writes nor reads W leaves any W as it was, and does the same to the rest (rule R20). -/
theorem exec_setW_of_not_writesW {i : Instr} {s t : State} (hr : ReadsW i = false) (hw : WritesW i = false) (x : Byte)
    (h : exec i s = .next t) : exec i (s.setW x) = .next (t.setW x) := by
  cases i with
  | comf f d | decf f d | incf f d | movf f d =>
    cases d with
    | w => cases hw
    | f => cases h; exact congrArg Host.Outcome.next (finishFile_setZ_setW s f _ _ x)
  | rlf f d | rrf f d =>
    cases d with
    | w => cases hw
    | f => cases h; exact congrArg Host.Outcome.next (finishFile_setC_setW s f _ _ x)
  | swapf f d =>
    cases d with
    | w => cases hw
    | f => cases h; exact congrArg Host.Outcome.next (finishFile_setW s f _ x)
  | decfsz f d | incfsz f d =>
    cases d with
    | w => cases hw
    | f => exact finishSkip_file_setW x h
  | clrf f => cases h; exact congrArg Host.Outcome.next (finishFile_setZ_setW s f _ _ x)
  | bcf f b | bsf f b => cases h; exact congrArg Host.Outcome.next (finishFile_setW s f _ x)
  | btfsc f b | btfss f b => cases h; exact congrArg Host.Outcome.next (skipIf_setW _ _ x)
  | nop | goto k | clrwdt | sleep => cases h; rfl
  | call k => exact execCall_setW x h
  | ret | retfie => exact returnToTos_setW x h
  | _ => simp [ReadsW, WritesW] at hr hw

/-- Settles O39: with W written, both runs have one outcome; with W left, they keep their difference in W. -/
theorem onlyTheListedInstructionsReadW : Obligations.OnlyTheListedInstructionsReadW := by
  intro i s t x hr h
  cases hw : WritesW i with
  | true => exact ⟨t, (exec_setW_of_writesW hr hw s x).trans h, rfl, fun _ => rfl⟩
  | false => exact ⟨t.setW x, exec_setW_of_not_writesW hr hw x h, rfl, fun he => absurd he (by simp)⟩

/-! ## A return undoes a push -/

/-- `p` has the stack that a push of `v` leaves of that of `s`. -/
structure HoldsPushed (s : State) (v : PAddr) (p : State) : Prop where
  stack : p.stack = (pushSlot s v).stack
  stackPtr : p.stackPtr = (pushSlot s v).stackPtr
  stackLive : p.stackLive = (pushSlot s v).stackLive
  device : p.device = s.device

/-- In a stack of two slots or more the top slot is not the free one. -/
theorem topSlot_ne_stackPtr {s : State} (hptr : s.stackPtr < s.device.stackDepth) (hdepth : 2 ≤ s.device.stackDepth) :
    topSlot s ≠ s.stackPtr := by
  unfold topSlot
  by_cases h0 : s.stackPtr = 0
  · rw [h0, Nat.mod_eq_of_lt (by omega)]; omega
  · rw [show s.stackPtr + s.device.stackDepth - 1 = s.stackPtr - 1 + s.device.stackDepth by omega, Nat.add_mod_right,
      Nat.mod_eq_of_lt (by omega)]
    omega

section
variable {s p : State} {v : PAddr}

theorem HoldsPushed.topSlot_eq (h : HoldsPushed s v p) (hptr : s.stackPtr < s.device.stackDepth) :
    topSlot p = s.stackPtr := by
  rw [← topSlot_pushSlot s v hptr]
  unfold topSlot
  rw [h.stackPtr, h.device, pushSlot_device]

theorem HoldsPushed.tos_eq (h : HoldsPushed s v p) (hptr : s.stackPtr < s.device.stackDepth) : tos p = v := by
  unfold tos
  rw [h.topSlot_eq hptr, h.stack]
  exact cellRead_write_same _ _ _ _

/-- Before the stack is full, a push adds an entry. -/
theorem HoldsPushed.live_eq (h : HoldsPushed s v p) (hroom : s.stackLive < s.device.stackDepth) :
    p.stackLive = s.stackLive + 1 :=
  h.stackLive.trans (Nat.min_eq_left hroom)

/-- Popping what was pushed, and going anywhere, restores the stack (R34). -/
theorem HoldsPushed.pop_restores (h : HoldsPushed s v p) (hptr : s.stackPtr < s.device.stackDepth)
    (hroom : s.stackLive < s.device.stackDepth) (a : PAddr) : StackRestored s ((popSlot p).jump a) := by
  have hptr' : (popSlot p).stackPtr = s.stackPtr := h.topSlot_eq hptr
  have hslots : ∀ n, n ≠ s.stackPtr → cellRead unlistedEntry p.stack n = cellRead unlistedEntry s.stack n := by
    intro n hn
    rw [h.stack]
    exact cellRead_write_other _ _ hn _
  refine ⟨hptr', ?_, hslots, fun hlive => ?_⟩
  · show p.stackLive - 1 = s.stackLive
    rw [h.live_eq hroom, Nat.add_sub_cancel]
  · have htop : topSlot ((popSlot p).jump a) = topSlot s := by
      unfold topSlot
      rw [State.jump_stackPtr, State.jump_device, hptr', popSlot_device, h.device]
    unfold tos
    rw [htop]
    exact hslots _ (topSlot_ne_stackPtr hptr (by omega))

/-- A return right after a push finds an entry and goes to what was pushed (R34, R175). -/
theorem HoldsPushed.returnToTos_eq (h : HoldsPushed s v p) (hptr : s.stackPtr < s.device.stackDepth)
    (hroom : s.stackLive < s.device.stackDepth) : returnToTos p = .next ((popSlot p).jump v) := by
  have hlive := h.live_eq hroom
  unfold returnToTos
  rcases pop_cases p with ⟨e, _⟩ | ⟨_, _, e⟩
  · rw [e, h.tos_eq hptr]
  · omega

end

/-- Settles O26: the state after the CALL holds the pushed return address. -/
theorem callThenReturn : Obligations.CallThenReturn := by
  intro k s t hwf hroom hcall
  obtain ⟨-, -, -, -, -, hptr, -⟩ := (wf_iff s).1 hwf
  have ht : t = (pushSlot s (s.pc + 1#13)).jump (pageTarget s k) := execCall_next hcall
  have hp : HoldsPushed s (s.pc + 1#13) t := by subst ht; exact ⟨rfl, rfl, rfl, rfl⟩
  exact ⟨_, hp.returnToTos_eq hptr hroom, rfl, hp.pop_restores hptr hroom _⟩

/-- Clearing a set bit and setting it again is no change. -/
theorem setBit_clear_set {v : Byte} {n : Nat} (hn : n < 8) (h : bitOf v n = true) :
    setBit (setBit v n false) n true = v := by
  apply BitVec.eq_of_getLsbD_eq
  intro k _
  by_cases hk : k = n
  · rw [hk]
    exact (bitOf_setBit_same _ _ _ hn).trans h.symm
  · exact (bitOf_setBit_other _ _ _ _ hk).trans (bitOf_setBit_other _ _ _ _ hk)

/-- Settles O47: the state after the entry, with GIE set again, holds the pushed pc. -/
theorem retfieUndoesInterruptEntry : Obligations.RetfieUndoesInterruptEntry := by
  intro s t hwf hgie hroom hentry
  obtain ⟨-, -, -, -, -, hptr, -⟩ := (wf_iff s).1 hwf
  have ht := enterInterrupt_next hentry
  have hp : HoldsPushed s s.pc { t with intcon := setBit t.intcon bitGIE true } := by
    subst ht; exact ⟨rfl, rfl, rfl, rfl⟩
  refine ⟨_, hp.returnToTos_eq hptr hroom, rfl, ?_, ?_, ?_, ?_, hp.pop_restores hptr hroom _⟩
  · subst ht
    exact setBit_clear_set (by decide) hgie
  all_goals subst ht; rfl

end Sys2Proof.Machine
end

section
/-! PROOFS. The opcode map read both ways (rules R97, R98, R108). A term encoded and decoded: its word has its row's pattern,
and each operand field reads back what was placed in it. A word decoded and encoded: its operand fields, put back beside its
row's pattern, give the bits that have a meaning in its row, and those are the bits `canonicalWord` keeps. -/

namespace Sys2Proof

/-! ## Patterns and operand fields -/

/-- Every row of the opcode map encodes its instruction. -/
theorem encodes_of_row {pattern mask : OpWord} {build : OpWord → Instr} (h : ⟨pattern, mask, build⟩ ∈ opcodeRows) :
    Encodes pattern mask build :=
  fun _ hw => decode_of_row h (decide_eq_true hw)

/-- A pattern has no bit in a field outside its mask. -/
theorem extract_pattern {pattern mask : OpWord} (hp : pattern &&& mask = pattern) {start n : Nat}
    (hm : mask.extractLsb' start n = 0#n) : pattern.extractLsb' start n = 0#n := by
  rw [← hp, BitVec.extractLsb'_and, hm, BitVec.and_zero]

/-- Bits outside the mask do not take a word out of its row. -/
theorem or_and_mask {pattern mask w x : OpWord} (hw : w &&& mask = pattern) (hx : x &&& mask = 0#14) :
    (w ||| x) &&& mask = pattern := by
  rw [BitVec.and_or_distrib_right, hw, hx, BitVec.or_zero]

/-- An operand in the low bits lies outside a mask that leaves those bits free. -/
theorem zeroExtend_and_mask {n : Nat} (k : BitVec n) {mask : OpWord} (hm : mask.extractLsb' 0 n = 0#n) (hn : n ≤ 14) :
    k.zeroExtend 14 &&& mask = 0#14 := by
  have hfree (j : Fin n) : (~~~mask).getLsbD j.val = true := by
    have hj : mask.getLsbD j = false := by simpa using congrArg (fun z : BitVec n => z.getLsbD j) hm
    rw [BitVec.getLsbD_not, hj, decide_eq_true (Nat.lt_of_lt_of_le j.isLt hn)]
    rfl
  simpa using Laws.CanonicalEncoding.field_inside k (~~~mask) hfree

theorem extract_zeroExtend {n : Nat} (k : BitVec n) (hn : n ≤ 14) : (k.zeroExtend 14).extractLsb' 0 n = k := by
  rw [← BitVec.setWidth_eq_extractLsb' hn, BitVec.setWidth_setWidth_of_le _ hn, BitVec.setWidth_eq]

/-- The low bits of a word, put back in their place. -/
theorem zeroExtend_extract (w : OpWord) (n : Nat) :
    (w.extractLsb' 0 n).zeroExtend 14 = w &&& (BitVec.allOnes n).zeroExtend 14 := by
  apply BitVec.eq_of_getLsbD_eq
  intro j hj
  simp [hj, Bool.and_comm]

/-! ## Formats BYTE and BIT: a word and its fields -/

section
variable {base : OpWord} (f : BitVec 7) (d : Dest) (b : BitVec 3)

theorem byteWord_and_mask (hbase : base &&& 0x3F00#14 = base) : byteWord base f d &&& 0x3F00#14 = base := by
  have hd : destBit d &&& 0x3F00#14 = 0#14 := by cases d <;> rfl
  exact or_and_mask (or_and_mask hbase hd) (zeroExtend_and_mask f (by decide) (by decide))

theorem fieldF_byteWord (hbase : base &&& 0x3F00#14 = base) : fieldF (byteWord base f d) = f := by
  have hd : (destBit d).extractLsb' 0 7 = 0#7 := by cases d <;> rfl
  unfold fieldF byteWord
  rw [BitVec.extractLsb'_or, BitVec.extractLsb'_or, extract_pattern hbase (by decide), hd, extract_zeroExtend f (by decide)]
  exact BitVec.zero_or

theorem fieldD_byteWord (hbase : base &&& 0x3F00#14 = base) : fieldD (byteWord base f d) = d := by
  have hb : base[7] = false := by rw [← hbase]; simp
  unfold fieldD byteWord
  cases d <;> simp [hb, destBit]

theorem bitWord_and_mask (hbase : base &&& 0x3C00#14 = base) : bitWord base f b &&& 0x3C00#14 = base := by
  have hb : b.zeroExtend 14 <<< 7 &&& 0x3C00#14 = 0#14 := by revert b; decide
  exact or_and_mask (or_and_mask hbase hb) (zeroExtend_and_mask f (by decide) (by decide))

theorem fieldF_bitWord (hbase : base &&& 0x3C00#14 = base) : fieldF (bitWord base f b) = f := by
  have hb : (b.zeroExtend 14 <<< 7).extractLsb' 0 7 = 0#7 := by revert b; decide
  unfold fieldF bitWord
  rw [BitVec.extractLsb'_or, BitVec.extractLsb'_or, extract_pattern hbase (by decide), hb, extract_zeroExtend f (by decide)]
  exact BitVec.zero_or

theorem fieldB_bitWord (hbase : base &&& 0x3C00#14 = base) : fieldB (bitWord base f b) = b := by
  have hf : (f.zeroExtend 14).extractLsb' 7 3 = 0#3 := by
    apply BitVec.eq_of_getLsbD_eq
    simp
  have hb : (b.zeroExtend 14 <<< 7).extractLsb' 7 3 = b := by revert b; decide
  unfold fieldB bitWord
  rw [BitVec.extractLsb'_or, BitVec.extractLsb'_or, extract_pattern hbase (by decide), hb, hf, BitVec.or_zero]
  exact BitVec.zero_or

end

/-! ## Decoding an encoded term -/

/-- A word of format BYTE decodes to its row's instruction with its operands f and d (rule R91). -/
theorem decode_byteWord {base : OpWord} {build : BitVec 7 → Dest → Instr}
    (henc : Encodes base 0x3F00#14 (fun w => build (fieldF w) (fieldD w))) (hbase : base &&& 0x3F00#14 = base)
    (f : BitVec 7) (d : Dest) : decode (byteWord base f d) = .ok (build f d) := by
  simpa only [fieldF_byteWord f d hbase, fieldD_byteWord f d hbase] using henc _ (byteWord_and_mask f d hbase)

/-- A word of format BIT decodes to its row's instruction with its operands f and b (rule R92). -/
theorem decode_bitWord {base : OpWord} {build : BitVec 7 → BitVec 3 → Instr}
    (henc : Encodes base 0x3C00#14 (fun w => build (fieldF w) (fieldB w))) (hbase : base &&& 0x3C00#14 = base)
    (f : BitVec 7) (b : BitVec 3) : decode (bitWord base f b) = .ok (build f b) := by
  simpa only [fieldF_bitWord f b hbase, fieldB_bitWord f b hbase] using henc _ (bitWord_and_mask f b hbase)

/-- A word with one operand, in its low bits, decodes to its row's instruction with that operand (rules R93, R94). -/
theorem decode_operandWord {n : Nat} {base : OpWord} {build : BitVec n → Instr} (mask : OpWord)
    (henc : Encodes base mask (fun w => build (w.extractLsb' 0 n))) (hbase : base &&& mask = base)
    (hmask : mask.extractLsb' 0 n = 0#n) (hn : n ≤ 14) (k : BitVec n) :
    decode (base ||| k.zeroExtend 14) = .ok (build k) := by
  have hk : (base ||| k.zeroExtend 14).extractLsb' 0 n = k := by
    rw [BitVec.extractLsb'_or, extract_pattern hbase hmask, extract_zeroExtend k hn, BitVec.zero_or]
  simpa only [hk] using henc _ (or_and_mask hbase (zeroExtend_and_mask k hmask hn))

/-- Settles O1, by the format of the instruction's word. -/
theorem decodeOfEncode : Obligations.DecodeOfEncode := by
  intro i hwf
  cases i with
  | addwf f d | andwf f d | comf f d | decf f d | decfsz f d | incf f d | incfsz f d | iorwf f d | movf f d | rlf f d
  | rrf f d | subwf f d | swapf f d | xorwf f d =>
    exact decode_byteWord (encodes_of_row (by simp [opcodeRows, byteRows])) rfl f d
  | bcf f b | bsf f b | btfsc f b | btfss f b =>
    exact decode_bitWord (encodes_of_row (by simp [opcodeRows, bitRows])) rfl f b
  | movwf f | clrf f =>
    exact decode_operandWord 0x3F80#14 (encodes_of_row (by simp [opcodeRows, fixedRows, fieldF])) rfl rfl (by decide) f
  | call k | goto k =>
    exact decode_operandWord 0x3800#14 (encodes_of_row (by simp [opcodeRows, literalRows, fieldK11])) rfl rfl
      (by decide) k
  | movlw k | retlw k =>
    exact decode_operandWord 0x3C00#14 (encodes_of_row (by simp [opcodeRows, literalRows, fieldK8])) rfl rfl
      (by decide) k
  | iorlw k | andlw k | xorlw k =>
    exact decode_operandWord 0x3F00#14 (encodes_of_row (by simp [opcodeRows, literalRows, fieldK8])) rfl rfl
      (by decide) k
  | sublw k | addlw k =>
    exact decode_operandWord 0x3E00#14 (encodes_of_row (by simp [opcodeRows, literalRows, fieldK8])) rfl rfl
      (by decide) k
  | nop | clrw | clrwdt | ret | retfie | sleep | option => rfl
  | tris f =>
    have hf : f = 5#3 ∨ f = 6#3 ∨ f = 7#3 := by revert f; decide
    rcases hf with rfl | rfl | rfl <;> rfl

/-! ## Encoding a decoded word -/

section
variable {w pattern mask : OpWord}

theorem zeroExtend_fieldF (w : OpWord) : (fieldF w).zeroExtend 14 = w &&& 0x007F#14 := zeroExtend_extract w 7

theorem destBit_fieldD (w : OpWord) : destBit (fieldD w) = w &&& 0x0080#14 := by
  have h := BitVec.and_twoPow w 7
  unfold fieldD
  rw [apply_ite destBit]
  exact h.symm

theorem zeroExtend_fieldB (w : OpWord) : (fieldB w).zeroExtend 14 <<< 7 = w &&& 0x0380#14 := by
  apply BitVec.eq_of_getLsbD_eq
  intro j hj
  interval_cases j <;> simp [fieldB]

/-- A word of format BYTE, rebuilt from its fields. -/
theorem byteWord_fields (hw : w &&& 0x3F00#14 = pattern) : byteWord pattern (fieldF w) (fieldD w) = w := by
  unfold byteWord
  rw [← hw, destBit_fieldD, zeroExtend_fieldF, ← BitVec.and_or_distrib_left, ← BitVec.and_or_distrib_left]
  exact BitVec.and_allOnes

/-- A word of format BIT, rebuilt from its fields. -/
theorem bitWord_fields (hw : w &&& 0x3C00#14 = pattern) : bitWord pattern (fieldF w) (fieldB w) = w := by
  unfold bitWord
  rw [← hw, zeroExtend_fieldB, zeroExtend_fieldF, ← BitVec.and_or_distrib_left, ← BitVec.and_or_distrib_left]
  exact BitVec.and_allOnes

/-- A pattern beside the operand in the low bits gives the word without the bits that neither its mask nor the operand holds. -/
theorem operandWord_fields (hw : w &&& mask = pattern) (n : Nat) :
    pattern ||| (w.extractLsb' 0 n).zeroExtend 14 = w &&& (mask ||| (BitVec.allOnes n).zeroExtend 14) := by
  rw [zeroExtend_extract, ← hw, BitVec.and_or_distrib_left]

theorem and_submask (hw : w &&& mask = pattern) {m : OpWord} (hm : mask &&& m = m) : w &&& m = pattern &&& m := by
  rw [← hw, BitVec.and_assoc, hm]

/-- A word of one row meets no test that disagrees with the row's pattern where both look. -/
theorem and_ne_of_disjoint (hw : w &&& mask = pattern) {m p : OpWord} (h : pattern &&& m ≠ p &&& mask) : w &&& m ≠ p :=
  of_decide_eq_false (not_accepts_of_disjoint (r := ⟨pattern, mask, fun _ => .nop⟩) (r' := ⟨p, m, fun _ => .nop⟩) h
    (decide_eq_true hw))

/-! ## The bits that a canonical word keeps (rule R97) -/

/-- Pattern and mask of each of the tests by which `canonicalWord` finds don't-care bits. -/
def dontCareTests : List (OpWord × OpWord) :=
  [(0x0100#14, 0x3F80#14), (0x0000#14, 0x3F9F#14), (0x3000#14, 0x3800#14), (0x3C00#14, 0x3C00#14)]

theorem canonicalWord_eq_self (hw : w &&& mask = pattern)
    (hno : ∀ t ∈ dontCareTests, pattern &&& t.2 ≠ t.1 &&& mask) : canonicalWord w = w := by
  simp only [dontCareTests, List.forall_mem_cons] at hno
  obtain ⟨hclrw, hnop, hload, hsum, -⟩ := hno
  rw [canonicalWord, if_neg (and_ne_of_disjoint hw hclrw), if_neg (and_ne_of_disjoint hw hnop),
    if_neg (and_ne_of_disjoint hw hload), if_neg (and_ne_of_disjoint hw hsum)]

theorem canonicalWord_clrw (hw : w &&& 0x3F80#14 = 0x0100#14) : canonicalWord w = 0x0100#14 := by
  rw [canonicalWord, if_pos hw, hw]

theorem canonicalWord_nop (hw : w &&& 0x3F9F#14 = 0x0000#14) : canonicalWord w = 0x0000#14 := by
  rw [canonicalWord, if_neg (and_ne_of_disjoint hw (by decide)), if_pos hw, hw]

theorem canonicalWord_load (hw : w &&& 0x3800#14 = 0x3000#14) : canonicalWord w = w &&& 0x3CFF#14 := by
  rw [canonicalWord, if_neg (and_ne_of_disjoint hw (by decide)), if_neg (and_ne_of_disjoint hw (by decide)), if_pos hw]

theorem canonicalWord_sum (hw : w &&& 0x3C00#14 = 0x3C00#14) : canonicalWord w = w &&& 0x3EFF#14 := by
  rw [canonicalWord, if_neg (and_ne_of_disjoint hw (by decide)), if_neg (and_ne_of_disjoint hw (by decide)),
    if_neg (and_ne_of_disjoint hw (by decide)), if_pos hw]

/-- MOVLW and RETLW lose bits 9:8. -/
theorem loadWord_canonical (hw : w &&& 0x3C00#14 = pattern) (hp : pattern &&& 0x3800#14 = 0x3000#14) :
    pattern ||| (fieldK8 w).zeroExtend 14 = canonicalWord w := by
  rw [canonicalWord_load ((and_submask hw rfl).trans hp)]
  exact operandWord_fields hw 8

/-- SUBLW and ADDLW lose bit 8. -/
theorem sumWord_canonical (hw : w &&& 0x3E00#14 = pattern) (hp : pattern &&& 0x3C00#14 = 0x3C00#14) :
    pattern ||| (fieldK8 w).zeroExtend 14 = canonicalWord w := by
  rw [canonicalWord_sum ((and_submask hw rfl).trans hp)]
  exact operandWord_fields hw 8

/-- A row whose mask and operand together hold every bit loses none. -/
theorem operandWord_canonical (hw : w &&& mask = pattern) (n : Nat)
    (hno : ∀ t ∈ dontCareTests, pattern &&& t.2 ≠ t.1 &&& mask)
    (hall : mask ||| (BitVec.allOnes n).zeroExtend 14 = BitVec.allOnes 14) :
    pattern ||| (w.extractLsb' 0 n).zeroExtend 14 = canonicalWord w := by
  rw [canonicalWord_eq_self hw hno, operandWord_fields hw, hall, BitVec.and_allOnes]

end

/-! ## The rows, list by list -/

/-- `i` is a term of the assembler whose word is `w` but for the don't-care bits (rules R97, R108). -/
def IsTermOf (i : Instr) (w : OpWord) : Prop := i.wellFormed = true ∧ encode i = canonicalWord w

section
variable {r : OpcodeRow} {w : OpWord}

theorem build_isTermOf_byteRow (hr : r ∈ byteRows) (hw : r.accepts w = true) : IsTermOf (r.build w) w := by
  have hbits := of_decide_eq_true hw
  unfold IsTermOf
  rw [canonicalWord_eq_self hbits (by fin_cases hr <;> simp [dontCareTests])]
  fin_cases hr <;> exact ⟨rfl, byteWord_fields hbits⟩

theorem build_isTermOf_bitRow (hr : r ∈ bitRows) (hw : r.accepts w = true) : IsTermOf (r.build w) w := by
  have hbits := of_decide_eq_true hw
  unfold IsTermOf
  rw [canonicalWord_eq_self hbits (by fin_cases hr <;> simp [dontCareTests])]
  fin_cases hr <;> exact ⟨rfl, bitWord_fields hbits⟩

theorem build_isTermOf_literalRow (hr : r ∈ literalRows) (hw : r.accepts w = true) : IsTermOf (r.build w) w := by
  have hbits := of_decide_eq_true hw
  simp only [literalRows, List.mem_cons, List.not_mem_nil, or_false] at hr
  rcases hr with rfl | rfl | rfl | rfl | rfl | rfl | rfl | rfl | rfl
  -- CALL, GOTO
  iterate 2 exact ⟨rfl, operandWord_canonical hbits 11 (by simp [dontCareTests]) rfl⟩
  -- MOVLW, RETLW
  iterate 2 exact ⟨rfl, loadWord_canonical hbits rfl⟩
  -- IORLW, ANDLW, XORLW
  iterate 3 exact ⟨rfl, operandWord_canonical hbits 8 (by simp [dontCareTests]) rfl⟩
  -- SUBLW, ADDLW
  iterate 2 exact ⟨rfl, sumWord_canonical hbits rfl⟩

/-- A word of a row whose mask holds every bit is the row's pattern. -/
theorem eq_of_whole_mask {pattern : OpWord} (h : w &&& 0x3FFF#14 = pattern) : w = pattern :=
  BitVec.and_allOnes.symm.trans h

theorem build_isTermOf_fixedRow (hr : r ∈ fixedRows) (hw : r.accepts w = true) : IsTermOf (r.build w) w := by
  have hbits := of_decide_eq_true hw
  simp only [fixedRows, List.mem_cons, List.not_mem_nil, or_false] at hr
  rcases hr with rfl | rfl | rfl | rfl | rfl | rfl | rfl | rfl | rfl | rfl | rfl | rfl
  -- NOP
  · exact ⟨rfl, (canonicalWord_nop hbits).symm⟩
  -- RETURN, RETFIE, OPTION, SLEEP, CLRWDT, and TRIS 5 to 7
  iterate 8 obtain rfl := eq_of_whole_mask hbits; exact ⟨rfl, rfl⟩
  -- MOVWF
  · exact ⟨rfl, operandWord_canonical hbits 7 (by simp [dontCareTests]) rfl⟩
  -- CLRW
  · exact ⟨rfl, (canonicalWord_clrw hbits).symm⟩
  -- CLRF
  · exact ⟨rfl, operandWord_canonical hbits 7 (by simp [dontCareTests]) rfl⟩

theorem build_isTermOf (hr : r ∈ opcodeRows) (hw : r.accepts w = true) : IsTermOf (r.build w) w := by
  simp only [opcodeRows, List.mem_append] at hr
  rcases hr with ((hr | hr) | hr) | hr
  · exact build_isTermOf_fixedRow hr hw
  · exact build_isTermOf_byteRow hr hw
  · exact build_isTermOf_bitRow hr hw
  · exact build_isTermOf_literalRow hr hw

end

/-- Settles O2, by the row that accepts the word. -/
theorem encodeOfDecodeIsCanonical : Obligations.EncodeOfDecodeIsCanonical := by
  intro w i h
  obtain ⟨r, hr, hw, rfl⟩ := row_of_decode h
  exact build_isTermOf hr hw

/-- Settles O4, by running the decoder on each word. -/
theorem sampleWordsDecode : Obligations.SampleWordsDecode :=
  ⟨rfl, rfl, rfl, rfl, rfl, rfl, rfl, rfl⟩

end Sys2Proof
end

section
/-! PROOFS. The byte-oriented instructions and MOVLW (40_byte_oriented.md, rule R164). Each computes a result and hands it to
an ending, which writes it to the destination and then writes the flags. So one lemma per ending says what it leaves (rules
R29, R65, R120, R140), one per operation says what its result is as a number, and each statement joins the two. -/

namespace Sys2Proof.Machine

/-! ## The flags written after the result -/

/-- STATUS with some bits inside `flags` written after the data write is as rule R29 says. -/
theorem statusAfter_of_outside {s t : State} {f : BitVec 7} {d : Dest} {r flags : Byte}
    (h : t.status &&& ~~~flags = (finishDest s f d r).status &&& ~~~flags) : StatusAfter s t f d r flags := by
  unfold StatusAfter
  rw [h, finishDest_status]

/-- The ending of the instructions that affect Z alone (rules R28, R29, R120). -/
theorem finishDest_setZ_result (s : State) (f : BitVec 7) (d : Dest) (r : Byte) :
    WroteDest s ((finishDest s f d r).setZ r) f d r (s.pc + 1) 1
    ∧ StatusAfter s ((finishDest s f d r).setZ r) f d r 0x04#8
    ∧ ((finishDest s f d r).setZ r).flagZ = decide (r.toNat = 0) := by
  refine ⟨finishDest_wrote .., statusAfter_of_outside (setBit_outside _ _ _ _ (by decide)), ?_⟩
  calc ((finishDest s f d r).setZ r).flagZ = (r == 0x00#8) := bitOf_setBit_same _ _ _ (by decide)
    _ = decide (r.toNat = 0) := by rw [Bool.eq_iff_iff]; simp [BitVec.toNat_eq]

/-- The same for a result given as a number. -/
theorem finishDest_setZ_result_ofNat (s : State) (f : BitVec 7) (d : Dest) {r : Byte} {n : Nat} (hn : n < 256)
    (hr : r = BitVec.ofNat 8 n) :
    WroteDest s ((finishDest s f d r).setZ r) f d (BitVec.ofNat 8 n) (s.pc + 1) 1
    ∧ StatusAfter s ((finishDest s f d r).setZ r) f d (BitVec.ofNat 8 n) 0x04#8
    ∧ ((finishDest s f d r).setZ r).flagZ = decide (n = 0) := by
  have hn' : r.toNat = n := by rw [hr, BitVec.toNat_ofNat, Nat.mod_eq_of_lt hn]
  rw [← hr, ← hn']
  exact finishDest_setZ_result s f d r

/-- The ending of the rotates, which affect C alone, for a result given as a number (rules R29, R135, R136). -/
theorem finishDest_setC_result (s : State) (f : BitVec 7) (d : Dest) {r : Byte} {n : Nat} {b c : Bool}
    (hr : r = BitVec.ofNat 8 n) (hb : b = c) :
    WroteDest s ((finishDest s f d r).setC b) f d (BitVec.ofNat 8 n) (s.pc + 1) 1
    ∧ StatusAfter s ((finishDest s f d r).setC b) f d (BitVec.ofNat 8 n) 0x01#8
    ∧ ((finishDest s f d r).setC b).flagC = c := by
  subst hr hb
  exact ⟨finishDest_wrote .., statusAfter_of_outside (setBit_outside _ _ _ _ (by decide)),
    bitOf_setBit_same _ _ _ (by decide)⟩

/-- The ending of the instructions that affect no flag (rules R29, R120). -/
theorem finishDest_result (s : State) (f : BitVec 7) (d : Dest) (r : Byte) :
    WroteDest s (finishDest s f d r) f d r (s.pc + 1) 1 ∧ StatusAfter s (finishDest s f d r) f d r 0x00#8 :=
  ⟨finishDest_wrote s f d r _, statusAfter_of_outside rfl⟩

/-- C, DC and Z after a sum, and every other STATUS bit as it was (rule R121). -/
theorem setSumFlags_flags (t : State) (r : Sum) :
    (t.setSumFlags r).flagC = r.c ∧ (t.setSumFlags r).flagDC = r.dc ∧ (t.setSumFlags r).flagZ = (r.value == 0x00#8)
    ∧ (t.setSumFlags r).status &&& ~~~0x07#8 = t.status &&& ~~~0x07#8 := by
  refine ⟨?_, ?_, bitOf_setBit_same _ _ _ (by decide), ?_⟩
  · simp [State.flagC, bitOf_setBit_other, bitC, bitDC, bitZ]
  · simp [State.flagDC, bitOf_setBit_other, bitDC, bitZ]
  · rw [State.setSumFlags_status]
    iterate 3 rw [setBit_outside _ _ _ _ (by decide)]

/-- The ending of ADDWF and SUBWF, which affect C, DC and Z, for a sum given as numbers (rules R29, R121). -/
theorem finishDest_setSumFlags_result (s : State) (f : BitVec 7) (d : Dest) {r : Sum} {n : Nat} {c dc : Bool}
    (hr : r = { value := BitVec.ofNat 8 n, c := c, dc := dc }) :
    WroteDest s ((finishDest s f d r.value).setSumFlags r) f d (BitVec.ofNat 8 n) (s.pc + 1) 1
    ∧ StatusAfter s ((finishDest s f d r.value).setSumFlags r) f d (BitVec.ofNat 8 n) 0x07#8
    ∧ ((finishDest s f d r.value).setSumFlags r).flagC = c
    ∧ ((finishDest s f d r.value).setSumFlags r).flagDC = dc
    ∧ ((finishDest s f d r.value).setSumFlags r).flagZ = decide (n % 256 = 0) := by
  subst hr
  obtain ⟨hc, hdc, hz, hother⟩ := setSumFlags_flags (finishDest s f d (BitVec.ofNat 8 n)) ⟨BitVec.ofNat 8 n, c, dc⟩
  exact ⟨finishDest_wrote .., statusAfter_of_outside hother, hc, hdc, hz.trans (ofNat_beq_zero n)⟩

/-! ## The skip forms -/

/-- A skip form goes on at the next address but one in two cycles, or at the next in one (rule R140). -/
theorem skipIf_decide (s : State) (p : Prop) [Decidable p] :
    skipIf s (decide p) = State.clock { s with pc := if p then s.pc + 2 else s.pc + 1 } (if p then 2 else 1) := by
  by_cases h : p <;> simp only [h, decide_true, decide_false, if_true, if_false] <;> rfl

/-- A data write anywhere but at PCL, with any STATUS and at any pace after it (rule R65). -/
theorem writeAt_wrote (s : State) {a : DAddr} (h : Device.kindAt s.device a ≠ .pcl) (v x : Byte) (npc : PAddr)
    (n : Nat) : WroteLocation s (State.clock { writeAt s a v with status := x, pc := npc } n) a v npc n := by
  obtain ⟨k, hk⟩ : ∃ k, Device.kindAt s.device a = k := ⟨_, rfl⟩
  unfold WroteLocation writeAt
  cases k with
  | pcl => exact absurd hk h
  | general | mirror _ =>
    simp only [hk]
    exact ⟨rfl, Memory.read_write_same _ _ _, fun _ hb => Memory.read_write_other _ hb _⟩
  | tris p | port p =>
    cases p with
    | further m =>
      simp only [hk]
      exact ⟨rfl, cellRead_write_same _ _ _ _, fun _ hm => cellRead_write_other _ _ hm _⟩
    | _ => simp only [hk]; rfl
  | _ => simp only [hk]; rfl

/-- A file-register write anywhere but at PCL, with any STATUS and at any pace after it (rules R63, R65). -/
theorem regWrite_wrote {s : State} {f : BitVec 7} (h : namesPcl s f = false) (v x : Byte) (npc : PAddr) (n : Nat) :
    WroteFile s (State.clock { regWrite s f v with status := x, pc := npc } n) f v npc n := by
  unfold namesPcl at h
  unfold WroteFile regWrite
  cases ht : fileTarget s f with
  | none => rfl
  | some a =>
    rw [ht] at h
    exact writeAt_wrote s (by simpa using h) v x npc n

/-- STATUS after a file-register write that makes no jump is that of the whole ending. -/
theorem regWrite_status {s : State} {f : BitVec 7} (h : namesPcl s f = false) (v : Byte) :
    (regWrite s f v).status = (finishDest s f .f v).status := by
  simp [finishDest, finishFile, h]

/-- The ending of the skip forms, for a result given as a number (rules R128, R130, R140). -/
theorem finishSkip_result (s : State) (f : BitVec 7) (d : Dest) (hd : d = .w ∨ namesPcl s f = false) {r : Byte}
    {n : Nat} (hn : n < 256) (hr : r = BitVec.ofNat 8 n) :
    ∃ t, finishSkip s f d r = .next t
      ∧ WroteDest s t f d (BitVec.ofNat 8 n) (if n = 0 then s.pc + 2 else s.pc + 1) (if n = 0 then 2 else 1)
      ∧ StatusAfter s t f d (BitVec.ofNat 8 n) 0x00#8 := by
  have hz : (r == 0x00#8) = decide (n = 0) := by rw [hr, ofNat_beq_zero, Nat.mod_eq_of_lt hn]
  rcases finishSkip_cases s f d r with ⟨rfl, e⟩ | ⟨rfl, hp, e⟩ | ⟨rfl, hp, _⟩
  · refine ⟨_, e, ?_, statusAfter_of_outside (by rw [skipIf_status]; rfl)⟩
    rw [hz, skipIf_decide, hr]
    rfl
  · refine ⟨_, e, ?_, statusAfter_of_outside (by rw [skipIf_status, regWrite_status hp, hr])⟩
    rw [hz, skipIf_decide, hr, regWrite_pc]
    exact regWrite_wrote hp ..
  · simp [hp] at hd

/-! ## The results as numbers -/

theorem sumWithCarry_eq (a b : Byte) (c : BitVec 1) :
    sumWithCarry a b c = { value := BitVec.ofNat 8 (a.toNat + b.toNat + c.toNat),
                           c := decide (256 ≤ a.toNat + b.toNat + c.toNat),
                           dc := decide (16 ≤ a.toNat % 16 + b.toNat % 16 + c.toNat) } := by
  rw [← sumWithCarry_value, ← sumWithCarry_c, ← sumWithCarry_dc]

/-- ADD(a, b) of rule R121. -/
theorem addBytes_eq (a b : Byte) :
    addBytes a b = { value := BitVec.ofNat 8 (a.toNat + b.toNat), c := decide (256 ≤ a.toNat + b.toNat),
                     dc := decide (16 ≤ a.toNat % 16 + b.toNat % 16) } :=
  sumWithCarry_eq a b 0#1

/-- SUB(a, b) of rule R121: C and DC are no borrow. -/
theorem subBytes_eq (a b : Byte) :
    subBytes a b = { value := BitVec.ofNat 8 (a.toNat + 256 - b.toNat), c := decide (b.toNat ≤ a.toNat),
                     dc := decide (b.toNat % 16 ≤ a.toNat % 16) } := by
  have hb := b.isLt
  have hvalue : a.toNat + (255 - b.toNat) + 1 = a.toNat + 256 - b.toNat := by omega
  have hc : 256 ≤ a.toNat + 256 - b.toNat ↔ b.toNat ≤ a.toNat := by omega
  have hdc : 16 ≤ a.toNat % 16 + (255 - b.toNat) % 16 + 1 ↔ b.toNat % 16 ≤ a.toNat % 16 := by omega
  simp [subBytes, sumWithCarry_eq, BitVec.toNat_not, hvalue, hc, hdc]

theorem not_eq_ofNat (a : Byte) : ~~~a = BitVec.ofNat 8 (255 - a.toNat) := by
  bv_omega

theorem sub_one_eq_ofNat (a : Byte) : a - 1#8 = BitVec.ofNat 8 ((a.toNat + 255) % 256) := by
  bv_omega

theorem add_one_eq_ofNat (a : Byte) : a + 1#8 = BitVec.ofNat 8 ((a.toNat + 1) % 256) := by
  bv_omega

/-- A high and a low part side by side, as a number. -/
theorem append_eq_ofNat {m n : Nat} (hi : BitVec m) (lo : BitVec n) :
    hi ++ lo = BitVec.ofNat (m + n) (2 ^ n * hi.toNat + lo.toNat) := by
  rw [Nat.two_pow_add_eq_or_of_lt lo.isLt, Nat.mul_comm, ← Nat.shiftLeft_eq, ← BitVec.toNat_append,
    BitVec.ofNat_toNat, BitVec.setWidth_eq]

theorem rotateLeft_eq_ofNat (a : Byte) (c : Bool) :
    a.extractLsb' 0 7 ++ BitVec.ofBool c = BitVec.ofNat 8 ((2 * a.toNat + c.toNat) % 256) := by
  have := c.toNat_lt
  rw [append_eq_ofNat, BitVec.extractLsb'_toNat, BitVec.toNat_ofBool, Nat.shiftRight_zero]
  congr 1
  omega

theorem rotateRight_eq_ofNat (a : Byte) (c : Bool) :
    BitVec.ofBool c ++ a.extractLsb' 1 7 = BitVec.ofNat 8 (a.toNat / 2 + 128 * c.toNat) := by
  have := a.isLt
  rw [append_eq_ofNat, BitVec.extractLsb'_toNat, BitVec.toNat_ofBool, Nat.shiftRight_eq_div_pow]
  congr 1
  omega

theorem swapNibbles_eq_ofNat (a : Byte) :
    a.extractLsb' 0 4 ++ a.extractLsb' 4 4 = BitVec.ofNat 8 (16 * (a.toNat % 16) + a.toNat / 16) := by
  have := a.isLt
  simp only [append_eq_ofNat, BitVec.extractLsb'_toNat, Nat.shiftRight_eq_div_pow]
  congr 1
  omega

/-- The bit rotated out on the left. -/
theorem bitOf_seven (a : Byte) : bitOf a 7 = decide (128 ≤ a.toNat) := by
  have := a.isLt
  rw [bitOf, BitVec.getLsbD, Nat.testBit_eq_decide_div_mod_eq, decide_eq_decide]
  omega

/-- The bit rotated out on the right. -/
theorem bitOf_zero (a : Byte) : bitOf a 0 = decide (a.toNat % 2 = 1) := by
  rw [bitOf, BitVec.getLsbD, Nat.testBit_zero]

/-! ## The instructions -/

/-- A row of format BYTE encodes its instruction. -/
theorem encodes_of_byteRow {pattern mask : OpWord} {build : OpWord → Instr} (h : ⟨pattern, mask, build⟩ ∈ byteRows) :
    Encodes pattern mask build :=
  encodes_of_row (by simp [opcodeRows, h])

/-- Settles O8, by the sums of rule R121 as numbers. -/
theorem addwfSubwfResult : Obligations.AddwfSubwfResult := by
  refine ⟨encodes_of_byteRow (by simp [byteRows]), encodes_of_byteRow (by simp [byteRows]),
    fun f d s => ⟨?addwf, ?subwf⟩⟩
  case addwf => exact ⟨_, rfl, finishDest_setSumFlags_result s f d (addBytes_eq ..)⟩
  case subwf =>
    have hz : (operand s f + 256 - s.w.toNat) % 256 = 0 ↔ operand s f = s.w.toNat := by
      have ha : operand s f < 256 := (regRead s f).isLt
      have hb := s.w.isLt
      omega
    simp only [← hz]
    exact ⟨_, rfl, finishDest_setSumFlags_result s f d (subBytes_eq ..)⟩

/-- Settles O9: the model's operation on bytes is the one on their bits. -/
theorem logicWithFileResult : Obligations.LogicWithFileResult := by
  refine ⟨encodes_of_byteRow (by simp [byteRows]), encodes_of_byteRow (by simp [byteRows]),
    encodes_of_byteRow (by simp [byteRows]), fun f d s => ?_⟩
  refine List.forall_mem_cons.mpr ⟨?andwf, List.forall_mem_cons.mpr ⟨?iorwf, List.forall_mem_singleton.mpr ?xorwf⟩⟩
  case andwf => exact ⟨_, _, rfl, fun k _ => BitVec.getLsbD_and, finishDest_setZ_result s f d _⟩
  case iorwf => exact ⟨_, _, rfl, fun k _ => BitVec.getLsbD_or, finishDest_setZ_result s f d _⟩
  case xorwf => exact ⟨_, _, rfl, fun k _ => BitVec.getLsbD_xor, finishDest_setZ_result s f d _⟩

/-- Settles O10, by the one's complement as a number. -/
theorem comfMovfResult : Obligations.ComfMovfResult := by
  refine ⟨encodes_of_byteRow (by simp [byteRows]), encodes_of_byteRow (by simp [byteRows]),
    fun f d s => List.forall_mem_cons.mpr ⟨?comf, List.forall_mem_singleton.mpr ?movf⟩⟩
  case comf =>
    have hlt : 255 - operand s f < 256 := by omega
    exact ⟨_, rfl, finishDest_setZ_result_ofNat s f d hlt (not_eq_ofNat _)⟩
  case movf => exact ⟨_, rfl, finishDest_setZ_result_ofNat s f d (regRead s f).isLt (by simp [operand])⟩

/-- Settles O11, by the decrement and the increment as numbers. -/
theorem decfIncfResult : Obligations.DecfIncfResult := by
  refine ⟨encodes_of_byteRow (by simp [byteRows]), encodes_of_byteRow (by simp [byteRows]),
    fun f d s => List.forall_mem_cons.mpr ⟨?decf, List.forall_mem_singleton.mpr ?incf⟩⟩
  case decf => exact ⟨_, rfl, finishDest_setZ_result_ofNat s f d (Nat.mod_lt _ (by decide)) (sub_one_eq_ofNat _)⟩
  case incf => exact ⟨_, rfl, finishDest_setZ_result_ofNat s f d (Nat.mod_lt _ (by decide)) (add_one_eq_ofNat _)⟩

/-- Settles O12, by the nine-bit rotates and the bit each rotates out as numbers. -/
theorem rotateResult : Obligations.RotateResult := by
  refine ⟨encodes_of_byteRow (by simp [byteRows]), encodes_of_byteRow (by simp [byteRows]),
    fun f d s => List.forall_mem_cons.mpr ⟨?rlf, List.forall_mem_singleton.mpr ?rrf⟩⟩
  case rlf => exact ⟨_, rfl, finishDest_setC_result s f d (rotateLeft_eq_ofNat ..) (bitOf_seven _)⟩
  case rrf => exact ⟨_, rfl, finishDest_setC_result s f d (rotateRight_eq_ofNat ..) (bitOf_zero _)⟩

/-- Settles O13, by the exchanged nibbles as a number. -/
theorem swapfResult : Obligations.SwapfResult := by
  refine ⟨encodes_of_byteRow (by simp [byteRows]), fun f d s => ?_⟩
  rw [operand, ← swapNibbles_eq_ofNat]
  exact ⟨_, rfl, finishDest_result s f d _⟩

/-- Settles O14: the two end as the instructions with d = 1 do. -/
theorem clrfMovwfResult : Obligations.ClrfMovwfResult := by
  refine ⟨encodes_of_row (by simp [opcodeRows, fixedRows]), encodes_of_row (by simp [opcodeRows, fixedRows]),
    fun f s => ⟨?clrf, ?movwf⟩⟩
  case clrf => exact ⟨_, rfl, finishDest_setZ_result s f .f _⟩
  case movwf => exact ⟨_, rfl, finishDest_result s f .f s.w⟩

/-- Settles O16, by the decrement and the increment as numbers. -/
theorem decfszIncfszResult : Obligations.DecfszIncfszResult := by
  refine ⟨encodes_of_byteRow (by simp [byteRows]), encodes_of_byteRow (by simp [byteRows]),
    fun f d s hd => List.forall_mem_cons.mpr ⟨?decfsz, List.forall_mem_singleton.mpr ?incfsz⟩⟩
  case decfsz => exact finishSkip_result s f d hd (Nat.mod_lt _ (by decide)) (sub_one_eq_ofNat _)
  case incfsz => exact finishSkip_result s f d hd (Nat.mod_lt _ (by decide)) (add_one_eq_ofNat _)

/-- Settles O15: CLRW and MOVLW load W, and of STATUS CLRW writes only Z. -/
theorem clrwMovlwNopResult : Obligations.ClrwMovlwNopResult := by
  refine ⟨encodes_of_row (by simp [opcodeRows, fixedRows]), encodes_of_row (by simp [opcodeRows, literalRows]),
    encodes_of_row (by simp [opcodeRows, fixedRows]), fun k s => ⟨?clrw, ?movlw, rfl⟩⟩
  case clrw => exact ⟨_, rfl, ⟨rfl, setBit_outside _ _ _ _ (by decide)⟩, bitOf_setBit_same _ _ _ (by decide)⟩
  case movlw => exact ⟨_, rfl, rfl, rfl⟩

end Sys2Proof.Machine
end

section
/-! PROOFS. The bit-oriented instructions (41_bit_oriented.md). BCF and BSF end as the byte-oriented instructions that affect no
flag do, with a result given by its bits; BTFSC and BTFSS are the skip ending alone (rule R150). -/

namespace Sys2Proof.Machine

/-- A row of format BIT encodes its instruction. -/
theorem encodes_of_bitRow {pattern mask : OpWord} {build : OpWord → Instr} (h : ⟨pattern, mask, build⟩ ∈ bitRows) :
    Encodes pattern mask build :=
  encodes_of_row (by simp [opcodeRows, h])

theorem setBit_isBitwise (v : Byte) (n : Nat) (b : Bool) :
    IsBitwise (setBit v n b) (fun k => if k = n then b else v.getLsbD k) := by
  intro k hk
  dsimp only
  split_ifs with hkn
  · subst hkn
    exact bitOf_setBit_same v k b hk
  · exact bitOf_setBit_other v n k b hkn

/-- The ending of the bit tests: two addresses on in two cycles exactly when the skip's condition holds (rules R25, R140). -/
theorem skipIf_of_iff (s : State) {b : Bool} {p : Prop} [Decidable p] (h : b = true ↔ p) :
    skipIf s b = if p then State.clock { s with pc := s.pc + 2 } 2 else State.clock { s with pc := s.pc + 1 } 1 :=
  if_congr h rfl rfl

/-- Settles O18: both write back the byte read with one bit written, as an instruction with d = 1 that affects no flag. -/
theorem bcfBsfResult : Obligations.BcfBsfResult := by
  refine ⟨encodes_of_bitRow (by simp [bitRows]), encodes_of_bitRow (by simp [bitRows]),
    fun f b s => List.forall_mem_cons.mpr ⟨?bcf, List.forall_mem_singleton.mpr ?bsf⟩⟩
  case bcf => exact ⟨_, _, rfl, setBit_isBitwise _ _ false, finishDest_result s f .f _⟩
  case bsf => exact ⟨_, _, rfl, setBit_isBitwise _ _ true, finishDest_result s f .f _⟩

/-- Settles O19: the tested bit of the byte read is that bit of its number. -/
theorem bitTestSkips : Obligations.BitTestSkips := by
  refine ⟨encodes_of_bitRow (by simp [bitRows]), encodes_of_bitRow (by simp [bitRows]),
    fun f b s => List.forall_mem_cons.mpr ⟨?btfsc, List.forall_mem_singleton.mpr ?btfss⟩⟩
  case btfsc => exact congrArg Host.Outcome.next (skipIf_of_iff s (Bool.not_eq_true' _).to_iff)
  case btfss => exact congrArg Host.Outcome.next (skipIf_of_iff s Iff.rfl)

end Sys2Proof.Machine
end

section
/-! PROOFS. The literal operations on W with flags (42_literal.md). Each ends as a byte-oriented instruction with d = 0 does: the
result goes to W, no file register is written, and the flags follow (rule R160). So what such an ending leaves is read off the
endings of the byte-oriented instructions, and each result off the operation's value as a number or by its bits. -/

namespace Sys2Proof.Machine

/-- A row of format LIT8 or LIT11 encodes its instruction. -/
theorem encodes_of_literalRow {pattern mask : OpWord} {build : OpWord → Instr}
    (h : ⟨pattern, mask, build⟩ ∈ literalRows) : Encodes pattern mask build :=
  encodes_of_row (by simp [opcodeRows, h])

/-- A result written to W at d = 0 is a literal operation's, whatever file register `f` is (rules R120, R160). -/
theorem wroteLiteral_of_wroteDest_w {s t : State} {f : BitVec 7} {r flags : Byte}
    (hw : WroteDest s t f .w r (s.pc + 1) 1) (hstatus : StatusAfter s t f .w r flags) : WroteLiteral s t r flags :=
  ⟨hw, hstatus⟩

/-- The ending of the literal operations that affect Z alone (rules R28, R160). -/
theorem loadW_setZ_result (s : State) (r : Byte) :
    WroteLiteral s ((s.loadW r).setZ r) r 0x04#8 ∧ ((s.loadW r).setZ r).flagZ = decide (r.toNat = 0) := by
  obtain ⟨hw, hstatus, hz⟩ := finishDest_setZ_result s 0#7 .w r
  exact ⟨wroteLiteral_of_wroteDest_w hw hstatus, hz⟩

/-- The ending of ADDLW and SUBLW, which affect C, DC and Z, for a sum given as numbers (rules R121, R160). -/
theorem loadW_setSumFlags_result (s : State) {r : Sum} {n : Nat} {c dc : Bool}
    (hr : r = { value := BitVec.ofNat 8 n, c := c, dc := dc }) :
    WroteLiteral s ((s.loadW r.value).setSumFlags r) (BitVec.ofNat 8 n) 0x07#8
    ∧ ((s.loadW r.value).setSumFlags r).flagC = c
    ∧ ((s.loadW r.value).setSumFlags r).flagDC = dc
    ∧ ((s.loadW r.value).setSumFlags r).flagZ = decide (n % 256 = 0) := by
  obtain ⟨hw, hstatus, hflags⟩ := finishDest_setSumFlags_result s 0#7 .w hr
  exact ⟨wroteLiteral_of_wroteDest_w hw hstatus, hflags⟩

/-- Settles O20, by the sums of rule R121 as numbers. -/
theorem addlwSublwResult : Obligations.AddlwSublwResult := by
  refine ⟨encodes_of_literalRow (by simp [literalRows]), encodes_of_literalRow (by simp [literalRows]),
    fun k s => ⟨?addlw, ?sublw⟩⟩
  case addlw => exact ⟨_, rfl, loadW_setSumFlags_result s (addBytes_eq s.w k)⟩
  case sublw =>
    have hz : (k.toNat + 256 - s.w.toNat) % 256 = 0 ↔ k.toNat = s.w.toNat := by
      have hk := k.isLt
      have hw := s.w.isLt
      omega
    simp only [← hz]
    exact ⟨_, rfl, loadW_setSumFlags_result s (subBytes_eq k s.w)⟩

/-- Settles O21: the model's operation on bytes is the one on their bits. -/
theorem logicWithLiteralResult : Obligations.LogicWithLiteralResult := by
  refine ⟨encodes_of_literalRow (by simp [literalRows]), encodes_of_literalRow (by simp [literalRows]),
    encodes_of_literalRow (by simp [literalRows]), fun k s => ?_⟩
  refine List.forall_mem_cons.mpr ⟨?andlw, List.forall_mem_cons.mpr ⟨?iorlw, List.forall_mem_singleton.mpr ?xorlw⟩⟩
  case andlw => exact ⟨_, _, rfl, fun j _ => BitVec.getLsbD_and, loadW_setZ_result s _⟩
  case iorlw => exact ⟨_, _, rfl, fun j _ => BitVec.getLsbD_or, loadW_setZ_result s _⟩
  case xorlw => exact ⟨_, _, rfl, fun j _ => BitVec.getLsbD_xor, loadW_setZ_result s _⟩

end Sys2Proof.Machine
end

section
/-! PROOFS. The transfers of control (43_control.md): CALL and GOTO through PCLATH, CALL and the returns through the stack
(rules R171 to R175). What a push and a pop leave where there is room or an entry is said once, for every user of the stack. -/

namespace Sys2Proof.Machine

/-! ## The target of CALL and GOTO -/

/-- `PCLATH[4:3] : k11` as a number (rules R25, R171, R172). -/
theorem pageTarget_toNat (s : State) (k : BitVec 11) :
    (pageTarget s k).toNat = 2048 * (s.pclath.toNat / 8 % 4) + k.toNat := by
  have hk := k.isLt
  rw [pageTarget, append_eq_ofNat, BitVec.extractLsb'_toNat, Nat.shiftRight_eq_div_pow, BitVec.toNat_ofNat]
  exact Nat.mod_eq_of_lt (by omega)

/-! ## The stack where there is room or an entry -/

/-- With room on the stack, a push happens (rule R35). -/
theorem push_of_canPush {s : State} (h : canPush s = true) (v : PAddr) : push s v = some (pushSlot s v) := by
  rcases push_cases s v with ⟨e, _⟩ | ⟨_, hmode, hfull⟩
  · exact e
  · have hroom : s.stackLive < s.device.stackDepth := by simpa [canPush, hmode] using h
    omega

/-- With an entry to pop, a pop happens (rule R35). -/
theorem pop_of_canPop {s : State} (h : canPop s = true) : pop s = some (tos s, popSlot s) := by
  rcases pop_cases s with ⟨e, _⟩ | ⟨_, hmode, hempty⟩
  · exact e
  · have hlive : 0 < s.stackLive := by simpa [canPop, hmode] using h
    omega

/-- A push writes the slot at the pointer and no other (rule R34). -/
theorem pushedOne_pushSlot (s : State) (v : PAddr) : PushedOne s (pushSlot s v) :=
  ⟨rfl, rfl, fun _ hn => cellRead_write_other _ _ hn _⟩

/-- With an entry to pop, a return goes to the top of the stack and removes it; only the pc, the pointer, the count and the
clocks change (rules R34, R170, R175). -/
theorem returnToTos_result {s : State} (h : canPop s = true) :
    ∃ t, returnToTos s = .next t ∧ t.pc = tos s
      ∧ t = State.clock { s with pc := t.pc, stackPtr := t.stackPtr, stackLive := s.stackLive - 1 } 2
      ∧ t.stackPtr = (s.stackPtr + s.device.stackDepth - 1) % s.device.stackDepth := by
  refine ⟨(popSlot s).jump (tos s), ?_, rfl, rfl, rfl⟩
  rw [returnToTos, pop_of_canPop h]

/-! ## The instructions -/

/-- Settles O22: the pushed address is on top, and the jump after the push leaves the stack. -/
theorem callResult : Obligations.CallResult := by
  refine ⟨encodes_of_literalRow (by simp [literalRows]), fun k s hroom hptr => ?_⟩
  refine ⟨(pushSlot s (s.pc + 1#13)).jump (pageTarget s k), ?_, pageTarget_toNat s k, tos_pushSlot s _ hptr,
    pushedOne_pushSlot s _, rfl⟩
  show execCall k s = _
  rw [execCall, push_of_canPush hroom]

/-- Settles O23, by the target as a number. -/
theorem gotoResult : Obligations.GotoResult :=
  ⟨encodes_of_literalRow (by simp [literalRows]), fun k s => ⟨_, rfl, pageTarget_toNat s k, rfl⟩⟩

/-- Settles O24: RETLW and RETFIE return from the state with W loaded and with GIE set, whose stack is the same. -/
theorem returnsResult : Obligations.ReturnsResult := by
  refine ⟨encodes_of_row (by simp [opcodeRows, fixedRows]), encodes_of_literalRow (by simp [literalRows]),
    encodes_of_row (by simp [opcodeRows, fixedRows]), fun k s hpop => ?_⟩
  refine List.forall_mem_cons.mpr ⟨?ret, List.forall_mem_cons.mpr ⟨?retlw, List.forall_mem_singleton.mpr ?retfie⟩⟩
  case ret => exact returnToTos_result hpop
  case retlw => exact returnToTos_result (s := { s with w := k }) hpop
  case retfie => exact returnToTos_result (s := { s with intcon := setBit s.intcon bitGIE true }) hpop

end Sys2Proof.Machine
end

section
/-! PROOFS. The core's step (60_exceptions.md, rule R211): what a step that is told to run makes of the program word. -/

namespace Sys2Proof.Machine

/-- An implemented, loaded word that decodes is fetched as the instruction that it decodes to (rules R61, R98). -/
theorem fetch_of_decode {s : State} {word : OpWord} {i : Instr} (hpc : s.pc.toNat < s.device.progWords)
    (hword : cellLookup s.pc.toNat s.prog = some word) (hdecode : decode word = .ok i) : fetch s = .next i := by
  have himplemented : ¬ s.device.progWords ≤ s.pc.toNat := by omega
  simp only [fetch, if_neg himplemented, hword, hdecode]

/-- Where the boundary says that the core runs, the step executes the instruction fetched (rule R211, steps 4 to 6). -/
theorem step_of_run {s t : State} {i : Instr} (hturn : turn s = .run t) (hfetch : fetch t = .next i) :
    step s = exec i t := by
  simp only [step, hturn, hfetch]

/-- Settles O5: the word is fetched as the instruction that it decodes to, and the step executes what was fetched. -/
theorem stepRunsTheDecodedInstruction : Obligations.StepRunsTheDecodedInstruction :=
  fun _ _ _ _ hturn hpc hword hdecode => step_of_run hturn (fetch_of_decode hpc hword hdecode)

end Sys2Proof.Machine
end

section
/-! PROOFS. What every step keeps: the machine's invariant, program memory and the device (rules R26, R34, R35, R60 to R62,
R77). Each named update of the state keeps the invariant; a boundary and an instruction are made of such updates, and a step is
made of the two. -/

namespace Sys2Proof.Machine

/-! ## The updates keep the invariant -/

/-- Settles O59, by evaluation. -/
theorem resetStateIsWellFormed : Obligations.ResetStateIsWellFormed := by
  unfold Obligations.ResetStateIsWellFormed
  decide

/-- A new byte of data memory inside the address space keeps the invariant (rule R62). -/
theorem State.wf_writeMem {s : State} (h : s.wf = true) {a : DAddr} (ha : a < 2 ^ s.device.dataAddrBits) (v : Byte) :
    State.wf { s with mem := Memory.write s.mem a v } = true := by
  obtain ⟨hdev, hmem, hrest⟩ := (wf_iff s).1 h
  exact (wf_iff _).2 ⟨hdev, Memory.wf_write _ _ _ _ ha hmem, hrest⟩

/-- A new value of a port that the device has keeps the invariant (rule R7). -/
theorem State.wf_setPort {s : State} (h : s.wf = true) {p : PortId} (hp : IsPort s.device p) (x : Port) :
    (s.setPort p x).wf = true := by
  cases p with
  | further n =>
    obtain ⟨hdev, hmem, hports, hrest⟩ := (wf_iff s).1 h
    exact (wf_iff _).2 ⟨hdev, hmem, cellsCanonical_write _ _ _ _ _ hp hports, hrest⟩
  | _ => exact h

/-- A byte written to PCLATH keeps the invariant: the mask clears the unimplemented bits (rule R26). -/
theorem State.wf_writePclath {s : State} (h : s.wf = true) (v : Byte) :
    State.wf { s with pclath := v &&& s.device.pclathMask } = true := by
  obtain ⟨hdev, hmem, hports, hprog, hstack, hptr, hlive, -, hinhibit⟩ := (wf_iff s).1 h
  refine (wf_iff _).2 ⟨hdev, hmem, hports, hprog, hstack, hptr, hlive, ?_, hinhibit⟩
  show v &&& s.device.pclathMask &&& ~~~s.device.pclathMask = 0#8
  rw [BitVec.and_assoc, BitVec.and_not_self]
  exact BitVec.and_zero

theorem writeTmr0_wf {s : State} (h : s.wf = true) (v : Byte) : (writeTmr0 s v).wf = true := by
  obtain ⟨hdev, hmem, hports, hprog, hstack, hptr, hlive, hpclath, -⟩ := (wf_iff s).1 h
  exact (wf_iff _).2 ⟨hdev, hmem, hports, hprog, hstack, hptr, hlive, hpclath, Nat.le_refl 3⟩

/-- A port that a row of the map names is one that the device has (rule R7). -/
theorem isPort_of_kindAt {d : Device} (h : Device.wf d = true) {a : DAddr} {p : PortId}
    (hk : Device.kindAt d a = .tris p ∨ Device.kindAt d a = .port p) : IsPort d p := by
  have hrow := wf_kindAt h a
  cases p with
  | further n => rcases hk with hk | hk <;> simpa [hk, Device.rowWf, IsPort] using hrow
  | _ => trivial

/-- A data write keeps the invariant, where it goes to data memory only inside the address space (rule R65). -/
theorem writeAt_wf {s : State} (h : s.wf = true) {a : DAddr}
    (ha : (Device.kindAt s.device a = .general ∨ ∃ b, Device.kindAt s.device a = .mirror b) →
      a < 2 ^ s.device.dataAddrBits) (v : Byte) : (writeAt s a v).wf = true := by
  have hdev := ((wf_iff s).1 h).1
  unfold writeAt
  cases hk : Device.kindAt s.device a with
  | general => exact State.wf_writeMem h (ha (.inl hk)) v
  | mirror b => exact State.wf_writeMem h (ha (.inr ⟨b, hk⟩)) v
  | tmr0 => exact writeTmr0_wf h v
  | pclath => exact State.wf_writePclath h v
  | tris p => exact State.wf_setPort h (isPort_of_kindAt hdev (.inl hk)) _
  | port p => exact State.wf_setPort h (isPort_of_kindAt hdev (.inr hk)) _
  | _ => exact h

theorem regWrite_wf {s : State} (h : s.wf = true) (f : BitVec 7) (v : Byte) : (regWrite s f v).wf = true := by
  rcases regWrite_cases s f v with ⟨_, e⟩ | ⟨a, ha, e⟩ <;> rw [e]
  · exact h
  · exact writeAt_wf h (fun _ => (wf_fileTarget ((wf_iff s).1 h).1 ha).1) v

theorem skipIf_wf {s : State} (h : s.wf = true) (b : Bool) : (skipIf s b).wf = true := by
  cases b <;> exact h

theorem finishFile_wf {s : State} (h : s.wf = true) (f : BitVec 7) (v : Byte) : (finishFile s f v).wf = true := by
  rcases finishFile_cases s f v with ⟨_, e⟩ | ⟨_, e⟩ <;> rw [e]
  · exact h
  · exact regWrite_wf h f v

theorem pushSlot_wf {s : State} (h : s.wf = true) (v : PAddr) : (pushSlot s v).wf = true := by
  obtain ⟨hdev, hmem, hports, hprog, hstack, hptr, -, hrest⟩ := (wf_iff s).1 h
  exact (wf_iff _).2 ⟨hdev, hmem, hports, hprog, cellsCanonical_write _ _ _ _ _ hptr hstack,
    Nat.mod_lt _ (Nat.zero_lt_of_lt hptr), Nat.min_le_right _ _, hrest⟩

theorem popSlot_wf {s : State} (h : s.wf = true) : (popSlot s).wf = true := by
  obtain ⟨hdev, hmem, hports, hprog, hstack, hptr, hlive, hrest⟩ := (wf_iff s).1 h
  exact (wf_iff _).2 ⟨hdev, hmem, hports, hprog, hstack, Nat.mod_lt _ (Nat.zero_lt_of_lt hptr),
    (Nat.sub_le _ _).trans hlive, hrest⟩

/-! ## An instruction keeps it -/

/-- Where OPTION and TRIS write, there is no data memory (rules R186, R187). -/
theorem optionTarget_ne_memory {d : Device} (h : Device.wf d = true) :
    ¬ (Device.kindAt d d.optionTarget = .general ∨ ∃ b, Device.kindAt d d.optionTarget = .mirror b) := by
  obtain ⟨hk | hk, -⟩ := wf_targets h <;> simp [hk]

/-- The kind of location that a TRIS instruction writes (rule R187). -/
theorem kindAt_trisTarget {d : Device} (h : Device.wf d = true) {f : BitVec 3} {a : DAddr} (ha : trisTarget d f = some a) :
    (∃ p, Device.kindAt d a = .tris p) ∨ Device.kindAt d a = .unimplemented := by
  obtain ⟨-, h5, h6, h7⟩ := wf_targets h
  unfold trisTarget at ha
  split_ifs at ha <;> cases ha
  · exact h5.imp_left (Exists.intro _)
  · exact h6.imp_left (Exists.intro _)
  · exact h7.imp_left (Exists.intro _)

theorem exec_wf {i : Instr} {s t : State} (h : s.wf = true) (he : exec i s = .next t) : t.wf = true := by
  have hdev := ((wf_iff s).1 h).1
  cases exec_endsIn he with
  | wroteFile f v x => exact finishFile_wf h f v
  | skippedOnW v b => exact skipIf_wf (s := { s with w := v }) h b
  | skippedOnFile f v b => exact skipIf_wf (regWrite_wf h f v) b
  | btfsc f b | btfss f b => exact skipIf_wf h _
  | call k => exact pushSlot_wf h _
  | ret => exact popSlot_wf h
  | retlw k => exact popSlot_wf (s := { s with w := k }) h
  | retfie => exact popSlot_wf (s := { s with intcon := setBit s.intcon bitGIE true }) h
  | option => exact writeAt_wf h (fun hm => absurd hm (optionTarget_ne_memory hdev)) s.w
  | tris f a ha =>
    refine writeAt_wf h (fun hm => ?_) s.w
    rcases kindAt_trisTarget hdev ha with ⟨p, hk⟩ | hk <;> simp [hk] at hm
  | loadedW | nop | goto | clrwdt | sleep => exact h

theorem enterInterrupt_wf {s t : State} (h : s.wf = true) (he : enterInterrupt s = .next t) : t.wf = true := by
  rw [enterInterrupt_next he]
  exact pushSlot_wf h s.pc

/-! ## A boundary keeps it -/

/-- The state that a boundary leaves to the rest of the step. -/
def Turn.state : Turn → State
  | .rest t | .interrupt t | .run t => t

/-- Whatever the core does next, the boundary's events were applied, and then a reset or a wake-up or nothing. -/
theorem turn_state_cases (s : State) :
    (turn s).state = powerOnReset (applyInput s s.input) ∨ (turn s).state = externalReset (applyInput s s.input)
    ∨ (turn s).state = watchdogReset (applyInput s s.input) ∨ (turn s).state = applyInput s s.input
    ∨ (turn s).state = { applyInput s s.input with sleeping := false }
    ∨ (turn s).state = watchdogWake (applyInput s s.input) := by
  rcases turn_cases s with ⟨_, e⟩ | ⟨_, e⟩ | ⟨_, _, _, e⟩ | ⟨_, _, _, _, e⟩ | ⟨_, _, _, _, e⟩ | ⟨_, _, _, _, e⟩
    | ⟨_, _, _, _, e⟩ | ⟨_, _, _, e | ⟨_, e⟩⟩ <;> simp [e, Turn.state]

theorem applyInput_wf {s : State} (h : s.wf = true) (inp : Input) : (applyInput s inp).wf = true := by
  obtain ⟨hdev, hmem, hports, hprog, hstack, hptr, hlive, hpclath, hinhibit⟩ := (wf_iff s).1 h
  have hports' : (applyInput s inp).furtherPorts = driveFurther s.device.furtherPorts s.furtherPorts inp.pinsFurther := by
    simp [applyInput]
  rw [wf_iff, hports']
  simp only [applyInput_device, applyInput_mem, applyInput_prog, applyInput_stack, applyInput_stackPtr,
    applyInput_stackLive, applyInput_pclath]
  exact ⟨hdev, hmem, driveFurther_canonical _ _ _ hports, hprog, hstack, hptr, hlive, hpclath,
    (applyInput_t0Inhibit s inp).trans hinhibit⟩

theorem restart_wf {s : State} (h : s.wf = true) (tOut pDown : Bool) : (restart s tOut pDown).wf = true := by
  obtain ⟨hdev, hmem, hports, hprog, hstack, hptr, -, -, -⟩ := (wf_iff s).1 h
  exact (wf_iff _).2 ⟨hdev, hmem, resetFurther_canonical _ _ _ (Nat.le_refl _) hports, hprog, hstack,
    Nat.zero_lt_of_lt hptr, Nat.zero_le _, BitVec.zero_and, Nat.zero_le _⟩

theorem externalReset_wf {s : State} (h : s.wf = true) : (externalReset s).wf = true := by
  unfold externalReset
  split <;> exact restart_wf h _ _

theorem powerOnReset_wf {s : State} (h : s.wf = true) : (powerOnReset s).wf = true := by
  obtain ⟨hdev, -, hports, hprog, -, hptr, -, -, -⟩ := (wf_iff s).1 h
  exact (wf_iff _).2 ⟨hdev, rfl, resetFurther_canonical _ _ _ (Nat.le_refl _) hports, hprog, rfl,
    Nat.zero_lt_of_lt hptr, Nat.zero_le _, BitVec.zero_and, Nat.zero_le _⟩

theorem turn_wf {s : State} (h : s.wf = true) : (turn s).state.wf = true := by
  have ha := applyInput_wf h s.input
  rcases turn_state_cases s with e | e | e | e | e | e <;> rw [e]
  · exact powerOnReset_wf ha
  · exact externalReset_wf ha
  · exact restart_wf ha false true
  all_goals exact ha

/-! ## A step keeps it -/

/-- What holds of the state that a boundary leaves, and is kept by interrupt entry and by every instruction, holds after the
step (rule R211). -/
theorem step_next_of_turn {P : State → Prop} {s t : State} (hstep : step s = .next t) (hturn : P (turn s).state)
    (hentry : ∀ {u v}, P u → enterInterrupt u = .next v → P v) (hexec : ∀ {i u v}, P u → exec i u = .next v → P v) :
    P t := by
  rcases step_next_cases hstep with e | ⟨u, e, hu⟩ | ⟨u, i, e, _, hu⟩ <;> rw [e] at hturn
  · exact hturn
  · exact hentry hturn hu
  · exact hexec hturn hu

/-- Settles O60: a boundary leaves a well-formed state, and entry and instructions keep it so. -/
theorem stepKeepsWellFormed : Obligations.StepKeepsWellFormed :=
  fun _ _ hwf hstep => step_next_of_turn (P := fun u => u.wf = true) hstep (turn_wf hwf) enterInterrupt_wf exec_wf

/-! ## Program memory and the device (rules R7, R61, R77) -/

/-- `t` has the program and the device of `s`. -/
def SameProgramAndDevice (s t : State) : Prop := t.prog = s.prog ∧ t.device = s.device

theorem turn_sameProgramAndDevice (s : State) : SameProgramAndDevice s (turn s).state := by
  have ha : SameProgramAndDevice s (applyInput s s.input) := ⟨applyInput_prog .., applyInput_device ..⟩
  rcases turn_state_cases s with e | e | e | e | e | e <;> rw [e]
  · exact ha
  · unfold externalReset
    split <;> exact ha
  all_goals exact ha

theorem exec_sameProgramAndDevice {i : Instr} {s t : State} (h : exec i s = .next t) : SameProgramAndDevice s t := by
  unfold SameProgramAndDevice
  cases exec_endsIn h <;> simp

/-- Settles O44: neither a boundary nor what follows it writes them. -/
theorem programAndDeviceNeverChange : Obligations.ProgramAndDeviceNeverChange := by
  intro s t hstep
  refine step_next_of_turn (P := SameProgramAndDevice s) hstep (turn_sameProgramAndDevice s) ?entry ?exec
  case entry =>
    rintro u v ⟨hprog, hdev⟩ hv
    rw [enterInterrupt_next hv]
    exact ⟨hprog, hdev⟩
  case exec =>
    rintro i u v ⟨hprog, hdev⟩ hv
    obtain ⟨hprog', hdev'⟩ := exec_sameProgramAndDevice hv
    exact ⟨hprog'.trans hprog, hdev'.trans hdev⟩

end Sys2Proof.Machine
end

section
/-! PROOFS. The reserved words (rule R99). A row whose mask is the word's leading bits accepts an interval of numbers, so each list
of rows accepts a few intervals, and the reserved words are what those intervals leave. -/

namespace Sys2Proof

/-! ## A row accepts an interval -/

/-- A mask of all bits from bit `k` up rounds a word down to a multiple of `2 ^ k`. -/
theorem and_leading_toNat (w : OpWord) (k : Nat) : (w &&& BitVec.allOnes 14 <<< k).toNat = w.toNat / 2 ^ k * 2 ^ k := by
  have hlt : w.toNat / 2 ^ k * 2 ^ k < 2 ^ 14 := (Nat.div_mul_le_self _ _).trans_lt w.isLt
  rw [← BitVec.shiftLeft_ushiftRight, BitVec.toNat_shiftLeft, BitVec.toNat_ushiftRight, Nat.shiftRight_eq_div_pow,
    Nat.shiftLeft_eq, Nat.mod_eq_of_lt hlt]

/-- So a pattern under it accepts the words of one interval of length `2 ^ k`. -/
theorem and_leading_eq_iff {w pattern mask : OpWord} (k : Nat) (hmask : mask = BitVec.allOnes 14 <<< k)
    (hp : pattern &&& mask = pattern) : w &&& mask = pattern ↔ w.toNat / 2 ^ k = pattern.toNat / 2 ^ k := by
  have hp' : pattern.toNat / 2 ^ k * 2 ^ k = pattern.toNat := by rw [← and_leading_toNat, ← hmask, hp]
  calc w &&& mask = pattern ↔ w.toNat / 2 ^ k * 2 ^ k = pattern.toNat / 2 ^ k * 2 ^ k := by
        rw [← BitVec.toNat_inj, hmask, and_leading_toNat, hp']
    _ ↔ w.toNat / 2 ^ k = pattern.toNat / 2 ^ k := Nat.mul_left_inj (Nat.two_pow_pos k).ne'

/-- NOP's mask, which leaves bits 6:5 free, is the bits above them together with the bits below. -/
theorem and_nopMask_eq_zero_iff (w : OpWord) : w &&& 0x3F9F#14 = 0x0000#14 ↔ w.toNat < 128 ∧ w.toNat % 32 = 0 := by
  have hmask : (0x3F9F#14 : OpWord) = 0x3F80#14 ||| 0x001F#14 := by decide
  have hhigh : w &&& 0x3F80#14 = 0x0000#14 ↔ w.toNat / 128 = 0 := and_leading_eq_iff 7 (by decide) (by decide)
  have hlow : (w &&& 0x001F#14).toNat = w.toNat % 32 := by
    rw [BitVec.toNat_and]
    exact Nat.and_two_pow_sub_one_eq_mod w.toNat 5
  rw [hmask, BitVec.and_or_distrib_left, BitVec.or_eq_zero_iff, hhigh, ← BitVec.toNat_inj (x := w &&& 0x001F#14), hlow]
  simp

/-! ## What each list of rows accepts -/

/-- Does some row of the list accept the word? -/
def anyAccepts (rows : List OpcodeRow) (w : OpWord) : Prop := ∃ r ∈ rows, r.accepts w = true

theorem anyAccepts_nil (w : OpWord) : anyAccepts [] w ↔ False := by
  simp [anyAccepts]

theorem anyAccepts_cons (r : OpcodeRow) (rows : List OpcodeRow) (w : OpWord) :
    anyAccepts (r :: rows) w ↔ w &&& r.mask = r.pattern ∨ anyAccepts rows w := by
  simp [anyAccepts, OpcodeRow.accepts]

theorem decode_reserved_iff (w : OpWord) : decode w = .error .reservedOpcode ↔ ¬ anyAccepts opcodeRows w := by
  unfold decode anyAccepts
  cases h : opcodeRows.find? (·.accepts w) with
  | none => simpa using h
  | some r =>
    have hr : ∃ r ∈ opcodeRows, r.accepts w = true :=
      ⟨r, List.mem_of_find?_eq_some h, by simpa using List.find?_some h⟩
    simp only [reduceCtorEq, hr, not_true]

theorem anyAccepts_opcodeRows (w : OpWord) :
    anyAccepts opcodeRows w
      ↔ anyAccepts fixedRows w ∨ anyAccepts byteRows w ∨ anyAccepts bitRows w ∨ anyAccepts literalRows w := by
  simp only [anyAccepts, opcodeRows, List.mem_append, or_and_right, exists_or, or_assoc]

theorem anyAccepts_fixedRows (w : OpWord) :
    anyAccepts fixedRows w ↔ (w.toNat < 0x80 ∧ w.toNat % 0x20 = 0) ∨ w.toNat = 0x08 ∨ w.toNat = 0x09
      ∨ (0x62 ≤ w.toNat ∧ w.toNat ≤ 0x67) ∨ (0x80 ≤ w.toNat ∧ w.toNat < 0x200) := by
  simp (disch := decide) only [fixedRows, anyAccepts_cons, anyAccepts_nil, and_nopMask_eq_zero_iff,
    and_leading_eq_iff 0, and_leading_eq_iff 7, BitVec.toNat_ofNat, Nat.reducePow, Nat.reduceMod, Nat.reduceDiv, or_false]
  omega

theorem anyAccepts_byteRows (w : OpWord) : anyAccepts byteRows w ↔ 0x0200 ≤ w.toNat ∧ w.toNat < 0x1000 := by
  simp (disch := decide) only [byteRows, anyAccepts_cons, anyAccepts_nil, and_leading_eq_iff 8,
    BitVec.toNat_ofNat, Nat.reducePow, Nat.reduceMod, Nat.reduceDiv, or_false]
  omega

theorem anyAccepts_bitRows (w : OpWord) : anyAccepts bitRows w ↔ 0x1000 ≤ w.toNat ∧ w.toNat < 0x2000 := by
  simp (disch := decide) only [bitRows, anyAccepts_cons, anyAccepts_nil, and_leading_eq_iff 10,
    BitVec.toNat_ofNat, Nat.reducePow, Nat.reduceMod, Nat.reduceDiv, or_false]
  omega

theorem anyAccepts_literalRows (w : OpWord) :
    anyAccepts literalRows w ↔ 0x2000 ≤ w.toNat ∧ w.toNat / 0x100 ≠ 0x3B := by
  have := w.isLt
  simp (disch := decide) only [literalRows, anyAccepts_cons, anyAccepts_nil, and_leading_eq_iff 8, and_leading_eq_iff 9,
    and_leading_eq_iff 10, and_leading_eq_iff 11, BitVec.toNat_ofNat, Nat.reducePow, Nat.reduceMod, Nat.reduceDiv, or_false]
  omega

/-- Settles O3: the reserved words are those between the intervals that the rows accept. -/
theorem reservedWordsAreTheListedOnes : Obligations.ReservedWordsAreTheListedOnes := by
  intro w
  rw [decode_reserved_iff, anyAccepts_opcodeRows, anyAccepts_fixedRows, anyAccepts_byteRows, anyAccepts_bitRows,
    anyAccepts_literalRows]
  simp only [BitVec.le_def, BitVec.toNat_eq, BitVec.toNat_ofNat]
  omega

end Sys2Proof
end

section
/-! PROOFS. Where the machine stops (rules R35, R61, R99, R140, R190 to R192): the refusals of a fetch, of the users of the stack,
and of the skips with PCL as their destination, and that there are no others. -/

namespace Sys2Proof.Machine

/-! ## A fetch -/

/-- Where the boundary says that the core runs, a fetch that is refused is the step's outcome (rule R211). -/
theorem step_of_run_refused {s t : State} {r : Refusal} (hturn : turn s = .run t) (hfetch : fetch t = .refused r) :
    step s = .refused r := by
  simp only [step, hturn, hfetch]

theorem fetch_unimplemented {s : State} (h : s.device.progWords ≤ s.pc.toNat) : fetch s = .refused .fetchUnimplemented := by
  rw [fetch, if_pos h]

theorem fetch_reserved {s : State} {word : OpWord} (hmode : s.device.reservedMode = .refuse)
    (hpc : s.pc.toNat < s.device.progWords) (hword : cellLookup s.pc.toNat s.prog = some word)
    (hdecode : decode word = .error .reservedOpcode) : fetch s = .refused .reservedOpcode := by
  simp only [fetch, if_neg (Nat.not_le.mpr hpc), hword, hdecode, hmode]

/-- Settles O7: the refused fetch is the step's outcome. -/
theorem fetchRefusals : Obligations.FetchRefusals := fun _ _ hturn =>
  ⟨fun hpc => step_of_run_refused hturn (fetch_unimplemented hpc),
    fun hmode _ hpc hword hdecode => step_of_run_refused hturn (fetch_reserved hmode hpc hword hdecode)⟩

/-! ## PCL as an operand -/

theorem namesPcl_iff (s : State) (f : BitVec 7) :
    namesPcl s f = true ↔ ∃ a, fileTarget s f = some a ∧ Device.kindAt s.device a = .pcl := by
  unfold namesPcl
  cases fileTarget s f <;> simp

theorem finishSkip_pcl {s : State} {f : BitVec 7} (h : namesPcl s f = true) (v : Byte) :
    finishSkip s f .f v = .refused .skipWithPclDest := by
  simp [finishSkip, h]

/-- Settles O17: the operand names PCL, whatever the result. -/
theorem skipWithPclDestinationIsRefused : Obligations.SkipWithPclDestinationIsRefused := by
  intro f a s ha hk
  have hpcl : namesPcl s f = true := (namesPcl_iff s f).2 ⟨a, ha, hk⟩
  exact ⟨finishSkip_pcl hpcl _, finishSkip_pcl hpcl _⟩

/-- PCL reads as the low byte of the next address (rule R24). -/
theorem pclValue_toNat (s : State) : (pclValue s).toNat = (s.pc.toNat + 1) % 256 := by
  rw [pclValue, BitVec.extractLsb'_toNat, Nat.shiftRight_zero, BitVec.toNat_add]
  exact Nat.mod_mod_of_dvd _ (by decide)

/-- Settles O31: PCL is what is read, on whatever way `f` names it. -/
theorem pclReadsNextAddress : Obligations.PclReadsNextAddress := by
  intro s f h
  obtain ⟨a, ha, hk⟩ := (namesPcl_iff s f).1 h
  have hread : regRead s f = pclValue s := by simp only [regRead, ha, readAt, hk]
  rw [operand, hread, pclValue_toNat]

/-! ## The stack -/

theorem push_full {s : State} (hmode : s.device.stackMode = .fault) (hfull : s.device.stackDepth ≤ s.stackLive) (v : PAddr) :
    push s v = none :=
  if_pos ⟨hmode, hfull⟩

theorem returnToTos_empty {s : State} (hmode : s.device.stackMode = .fault) (hempty : s.stackLive = 0) :
    returnToTos s = .refused .stackBounds := by
  have hpop : pop s = none := if_pos ⟨hmode, hempty⟩
  rw [returnToTos, hpop]

/-- Settles O25: the push and the pop have no result; RETLW and RETFIE pop the same stack. -/
theorem stackBoundsRefusals : Obligations.StackBoundsRefusals := by
  intro k l s hmode
  refine ⟨fun hfull => ⟨?call, ?entry⟩, fun hempty => ⟨?ret, ?retlw, ?retfie⟩⟩
  case call => show execCall k s = _; rw [execCall, push_full hmode hfull]
  case entry => rw [enterInterrupt, push_full hmode hfull]
  case ret => exact returnToTos_empty hmode hempty
  case retlw => exact returnToTos_empty (s := { s with w := l }) hmode hempty
  case retfie => exact returnToTos_empty (s := { s with intcon := setBit s.intcon bitGIE true }) hmode hempty

/-! ## No other refusal -/

/-- A skip form ends, or it is refused with PCL as its destination (rule R140). -/
theorem finishSkip_next_or_refused (s : State) (f : BitVec 7) (d : Dest) (v : Byte) :
    (∃ t, finishSkip s f d v = .next t)
    ∨ (finishSkip s f d v = .refused .skipWithPclDest ∧ d = .f ∧ namesPcl s f = true) := by
  rcases finishSkip_cases s f d v with ⟨_, e⟩ | ⟨_, _, e⟩ | ⟨hd, hpcl, e⟩
  · exact .inl ⟨_, e⟩
  · exact .inl ⟨_, e⟩
  · exact .inr ⟨e, hd, hpcl⟩

/-- A return ends, or it finds an empty stack in fault mode (rule R35). -/
theorem returnToTos_next_or_refused (s : State) :
    (∃ t, returnToTos s = .next t)
    ∨ (returnToTos s = .refused .stackBounds ∧ s.device.stackMode = .fault ∧ s.stackLive = 0) := by
  rcases pop_cases s with ⟨e, _⟩ | ⟨_, hmode, hempty⟩
  · exact .inl ⟨_, by rw [returnToTos, e]⟩
  · exact .inr ⟨returnToTos_empty hmode hempty, hmode, hempty⟩

/-- A CALL ends, or it finds a full stack in fault mode (rule R35). -/
theorem execCall_next_or_refused (s : State) (k : BitVec 11) :
    (∃ t, execCall k s = .next t)
    ∨ (execCall k s = .refused .stackBounds ∧ s.device.stackMode = .fault ∧ s.device.stackDepth ≤ s.stackLive) := by
  rcases push_cases s (s.pc + 1#13) with ⟨e, _⟩ | ⟨e, hmode, hfull⟩
  · exact .inl ⟨_, by rw [execCall, e]⟩
  · exact .inr ⟨by rw [execCall, e], hmode, hfull⟩

theorem trisTarget_of_wellFormed (d : Device) {f : BitVec 3} (h : (Instr.tris f).wellFormed = true) :
    ∃ a, trisTarget d f = some a := by
  have hf : f = 5#3 ∨ f = 6#3 ∨ f = 7#3 := by revert f; decide
  rcases hf with rfl | rfl | rfl <;> exact ⟨_, rfl⟩

/-- Settles O37: of the endings only the skip with a destination, the return and the CALL can be refused. -/
theorem onlyTheListedRefusals : Obligations.OnlyTheListedRefusals := by
  intro i s hwf
  cases i with
  | decfsz f d =>
    refine (finishSkip_next_or_refused s f d _).imp_right fun ⟨e, hd, hpcl⟩ => .inr ?_
    subst hd
    exact ⟨e, f, .inl rfl, hpcl⟩
  | incfsz f d =>
    refine (finishSkip_next_or_refused s f d _).imp_right fun ⟨e, hd, hpcl⟩ => .inr ?_
    subst hd
    exact ⟨e, f, .inr rfl, hpcl⟩
  | call k =>
    exact (execCall_next_or_refused s k).imp_right fun ⟨e, hmode, hfull⟩ => .inl ⟨e, hmode, .inl ⟨k, rfl, hfull⟩⟩
  | ret =>
    exact (returnToTos_next_or_refused s).imp_right fun ⟨e, hmode, hempty⟩ => .inl ⟨e, hmode, .inr ⟨.inl rfl, hempty⟩⟩
  | retfie =>
    exact (returnToTos_next_or_refused { s with intcon := setBit s.intcon bitGIE true }).imp_right
      fun ⟨e, hmode, hempty⟩ => .inl ⟨e, hmode, .inr ⟨.inr (.inl rfl), hempty⟩⟩
  | retlw k =>
    exact (returnToTos_next_or_refused { s with w := k }).imp_right
      fun ⟨e, hmode, hempty⟩ => .inl ⟨e, hmode, .inr ⟨.inr (.inr ⟨k, rfl⟩), hempty⟩⟩
  | tris f =>
    obtain ⟨a, ha⟩ := trisTarget_of_wellFormed s.device hwf
    exact .inl ⟨(writeAt s a s.w).next, by show execTris f s = _; rw [execTris, ha]⟩
  | _ => exact .inl ⟨_, rfl⟩

end Sys2Proof.Machine
end

section
/-! PROOFS. Who writes PCLATH and INTCON, and who puts the core to sleep (rules R26, R32, R173, R194, R209). A data write changes
one of the two registers only at that register's own address, and no other ending changes them but RETFIE's. -/

namespace Sys2Proof.Machine

/-! ## FSR, PCLATH and INTCON under a data write -/

/-- `t` has the FSR, PCLATH and INTCON of `s`, each unless its kind of location was written. -/
structure CoreKept (s t : State) (written : DataKind → Prop) : Prop where
  fsr : ¬ written .fsr → t.fsr = s.fsr
  pclath : ¬ written .pclath → t.pclath = s.pclath
  intcon : ¬ written .intcon → t.intcon = s.intcon

theorem CoreKept.of_eq {s t : State} {written : DataKind → Prop} (hfsr : t.fsr = s.fsr) (hpclath : t.pclath = s.pclath)
    (hintcon : t.intcon = s.intcon) : CoreKept s t written :=
  ⟨fun _ => hfsr, fun _ => hpclath, fun _ => hintcon⟩

/-- So has a later state, with more written. -/
theorem CoreKept.onward {s t u : State} {written written' : DataKind → Prop} (h : CoreKept s t written)
    (hw : ∀ k, written k → written' k) (hfsr : u.fsr = t.fsr) (hpclath : u.pclath = t.pclath)
    (hintcon : u.intcon = t.intcon) : CoreKept s u written' :=
  ⟨fun hn => hfsr.trans (h.fsr (hn ∘ hw _)), fun hn => hpclath.trans (h.pclath (hn ∘ hw _)),
    fun hn => hintcon.trans (h.intcon (hn ∘ hw _))⟩

/-- `f` names a location of this kind. -/
def NamesKind (s : State) (f : BitVec 7) (k : DataKind) : Prop := ∃ a, fileTarget s f = some a ∧ Device.kindAt s.device a = k

theorem writeAt_coreKept (s : State) (a : DAddr) (v : Byte) :
    CoreKept s (writeAt s a v) (fun k => Device.kindAt s.device a = k) := by
  unfold writeAt
  cases Device.kindAt s.device a with
  | fsr => exact ⟨fun h => absurd rfl h, fun _ => rfl, fun _ => rfl⟩
  | pclath => exact ⟨fun _ => rfl, fun h => absurd rfl h, fun _ => rfl⟩
  | intcon => exact ⟨fun _ => rfl, fun _ => rfl, fun h => absurd rfl h⟩
  | tris p | port p => exact .of_eq (State.setPort_fsr ..) (State.setPort_pclath ..) (State.setPort_intcon ..)
  | _ => exact .of_eq rfl rfl rfl

theorem regWrite_coreKept (s : State) (f : BitVec 7) (v : Byte) : CoreKept s (regWrite s f v) (NamesKind s f) := by
  rcases regWrite_cases s f v with ⟨_, e⟩ | ⟨a, ha, e⟩ <;> rw [e]
  · exact .of_eq rfl rfl rfl
  · exact (writeAt_coreKept s a v).onward (fun _ hk => ⟨a, ha, hk⟩) rfl rfl rfl

theorem finishFile_coreKept (s : State) (f : BitVec 7) (v : Byte) : CoreKept s (finishFile s f v) (NamesKind s f) := by
  rcases finishFile_cases s f v with ⟨_, e⟩ | ⟨_, e⟩ <;> rw [e]
  · exact .of_eq rfl rfl rfl
  · exact (regWrite_coreKept s f v).onward (fun _ => id) rfl rfl rfl

/-! ## The instructions -/

/-- OPTION writes the OPTION register or nothing, so none of the three (rule R186). -/
theorem writeAt_optionTarget_coreKept {s : State} (h : Device.wf s.device = true) (v : Byte) :
    CoreKept s (writeAt s s.device.optionTarget v) (fun _ => False) := by
  obtain ⟨hfsr, hpclath, hintcon⟩ := writeAt_coreKept s s.device.optionTarget v
  obtain ⟨hk | hk, -⟩ := wf_targets h <;>
    exact .of_eq (hfsr (by simp [hk])) (hpclath (by simp [hk])) (hintcon (by simp [hk]))

/-- TRIS writes a TRIS register or nothing (rule R187). -/
theorem writeAt_trisTarget_coreKept {s : State} (h : Device.wf s.device = true) {f : BitVec 3} {a : DAddr}
    (ha : trisTarget s.device f = some a) (v : Byte) :
    CoreKept s (writeAt s a v) (fun _ => False) := by
  obtain ⟨hfsr, hpclath, hintcon⟩ := writeAt_coreKept s a v
  rcases kindAt_trisTarget h ha with ⟨p, hk⟩ | hk <;>
    exact .of_eq (hfsr (by simp [hk])) (hpclath (by simp [hk])) (hintcon (by simp [hk]))

/-- No instruction but RETFIE changes the three otherwise than by a data write to a file register that it lists. -/
theorem exec_coreKept {i : Instr} {s t : State} (hdev : Device.wf s.device = true) (hi : i ≠ .retfie)
    (h : exec i s = .next t) : CoreKept s t (fun k => ∃ f, FileWritten i = some f ∧ NamesKind s f k) := by
  cases exec_endsIn h with
  | retfie => exact absurd rfl hi
  | wroteFile f v x hf => exact (finishFile_coreKept s f v).onward (fun _ hk => ⟨f, hf, hk⟩) rfl rfl rfl
  | skippedOnFile f v b hf =>
    exact (regWrite_coreKept s f v).onward (fun _ hk => ⟨f, hf, hk⟩) (skipIf_fsr ..) (skipIf_pclath ..) (skipIf_intcon ..)
  | skippedOnW | btfsc | btfss => exact .of_eq (skipIf_fsr ..) (skipIf_pclath ..) (skipIf_intcon ..)
  | option => exact (writeAt_optionTarget_coreKept hdev s.w).onward (fun _ => False.elim) rfl rfl rfl
  | tris f a ha => exact (writeAt_trisTarget_coreKept hdev ha s.w).onward (fun _ => False.elim) rfl rfl rfl
  | _ => exact .of_eq rfl rfl rfl

/-- Settles O40: RETFIE leaves PCLATH, and the others change it by a data write alone. -/
theorem pclathChangesOnlyByDataWrites : Obligations.PclathChangesOnlyByDataWrites := by
  intro i s t hdev he
  contrapose!
  intro hno
  by_cases hi : i = .retfie
  · subst hi
    rw [returnToTos_next he]
    rfl
  · exact (exec_coreKept hdev hi he).pclath fun ⟨f, hf, a, ha, hk⟩ => hno f a hf ha hk

/-- Settles O41: RETFIE sets GIE, and the others change INTCON by a data write alone. -/
theorem intconChangesOnlyBySoftware : Obligations.IntconChangesOnlyBySoftware := by
  intro i s t hdev he hchange
  by_cases hi : i = .retfie
  · subst hi
    refine .inl ⟨rfl, ?_⟩
    rw [returnToTos_next he]
    rfl
  · by_contra! hno
    exact hchange ((exec_coreKept hdev hi he).intcon fun ⟨f, hf, a, ha, hk⟩ => hno.2 f a hf ha hk)

/-! ## Sleep -/

theorem exec_sleeping {i : Instr} {s t : State} (hi : i ≠ .sleep) (h : exec i s = .next t) : t.sleeping = s.sleeping := by
  cases exec_endsIn h with
  | sleep => exact absurd rfl hi
  | _ => simp

/-- A boundary does not put an awake core to sleep. -/
theorem turn_state_awake {s : State} (h : s.sleeping = false) : (turn s).state.sleeping = false := by
  have ha : (applyInput s s.input).sleeping = false := (applyInput_sleeping s s.input).trans h
  rcases turn_state_cases s with e | e | e | e | e | e <;> rw [e]
  · rfl
  · unfold externalReset
    split <;> rfl
  · rfl
  · exact ha
  all_goals rfl

/-- Settles O43: neither a boundary, nor an interrupt entry, nor another instruction puts the core to sleep. -/
theorem onlySleepEntersSleep : Obligations.OnlySleepEntersSleep := by
  intro s t hawake hstep hsleeps
  have hboundary := turn_state_awake hawake
  rcases step_next_cases hstep with e | ⟨u, e, hu⟩ | ⟨u, i, e, hfetch, hu⟩ <;> rw [e] at hboundary
  · exact absurd (hboundary.symm.trans hsleeps) (by decide)
  · rw [enterInterrupt_next hu] at hsleeps
    exact absurd (hboundary.symm.trans hsleeps) (by decide)
  · by_cases hi : i = .sleep
    · exact ⟨u, e, hi ▸ hfetch⟩
    · exact absurd ((hboundary.symm.trans (exec_sleeping hi hu).symm).trans hsleeps) (by decide)

end Sys2Proof.Machine
end

section
/-! PROOFS. The next pc and the cycles (rules R25, R241). Each form of ending goes on in one way; where it may be by a write to
PCL, the byte written is the instruction's result as a number. -/

namespace Sys2Proof.Machine

/-! ## How each ending goes on -/

/-- `t` stands at an address after some cycles more than at `s`. -/
def GoesTo (s t : State) (p : PAddr × Nat) : Prop := t.pc = p.1 ∧ t.cycles = s.cycles + p.2

/-- Where a write of the byte `v` to the file register `f` goes on (rules R25, R27). -/
def pcAfterWrite (s : State) (f : BitVec 7) (v : Byte) : PAddr × Nat :=
  if namesPcl s f then (s.pclath.extractLsb' 0 5 ++ v, 2) else (s.pc + 1, 1)

theorem finishFile_goesTo (s : State) (f : BitVec 7) (v : Byte) : GoesTo s (finishFile s f v) (pcAfterWrite s f v) := by
  unfold GoesTo pcAfterWrite
  rcases finishFile_cases s f v with ⟨h, e⟩ | ⟨h, e⟩ <;> simp [h, e, pclTarget]

/-- Where a write of the byte `v` to the destination `d` goes on (rules R25, R120). -/
def pcAfterDest (s : State) (f : BitVec 7) (d : Dest) (v : Byte) : PAddr × Nat :=
  match d with
  | .w => (s.pc + 1, 1)
  | .f => pcAfterWrite s f v

/-- An instruction that writes the byte `v` to its destination, if `v` is the byte that the statement computes (rule R120). -/
theorem finishDest_goesTo {s : State} {i : Instr} (f : BitVec 7) (d : Dest) {v : Byte}
    (hi : PcAfter s i = pcAfterDest s f d (BitVec.ofNat 8 (ByteWritten s i)))
    (hv : v = BitVec.ofNat 8 (ByteWritten s i)) : GoesTo s (finishDest s f d v) (PcAfter s i) := by
  rw [hi, ← hv]
  cases d with
  | w => exact ⟨rfl, rfl⟩
  | f => exact finishFile_goesTo s f v

theorem skipIf_goesTo (s : State) (p : Prop) [Decidable p] :
    GoesTo s (skipIf s (decide p)) (if p then (s.pc + 2, 2) else (s.pc + 1, 1)) := by
  rw [skipIf_decide]
  split_ifs <;> exact ⟨rfl, rfl⟩

/-- A skip form with a destination skips on the result 0, wherever the result goes (rule R140). -/
theorem finishSkip_goesTo {s t : State} {f : BitVec 7} {d : Dest} {v : Byte} {p : Prop} [Decidable p] (hv : v = 0#8 ↔ p)
    (h : finishSkip s f d v = .next t) : GoesTo s t (if p then (s.pc + 2, 2) else (s.pc + 1, 1)) := by
  have hz : (v == 0x00#8) = decide p := by rw [Bool.eq_iff_iff, beq_iff_eq, decide_eq_true_eq]; exact hv
  rcases finishSkip_cases s f d v with ⟨_, e⟩ | ⟨_, _, e⟩ | ⟨_, _, e⟩ <;> rw [e] at h <;> cases h <;> rw [hz]
  · exact skipIf_goesTo { s with w := v } p
  · simpa only [GoesTo, regWrite_pc, regWrite_cycles] using skipIf_goesTo (regWrite s f v) p

theorem writeAt_goesTo (s : State) (a : DAddr) (v : Byte) : GoesTo s (writeAt s a v).next (s.pc + 1, 1) := by
  simp [GoesTo]

/-- A TRIS that ends wrote W somewhere and went on (rule R187). -/
theorem execTris_next {f : BitVec 3} {s t : State} (h : execTris f s = .next t) :
    ∃ a, t = (writeAt s a s.w).next := by
  unfold execTris at h
  split at h <;> cases h
  exact ⟨_, rfl⟩

/-! ## The bytes written, as numbers -/

theorem eq_ofNat_toNat (v : Byte) : v = BitVec.ofNat 8 v.toNat := by simp

theorem ofNat_mod_256 (n : Nat) : BitVec.ofNat 8 n = BitVec.ofNat 8 (n % 256) := by
  apply BitVec.eq_of_toNat_eq
  simp

theorem addBytes_value (a b : Byte) : (addBytes a b).value = BitVec.ofNat 8 ((a.toNat + b.toNat) % 256) := by
  rw [addBytes_eq, ← ofNat_mod_256]

theorem subBytes_value (a b : Byte) : (subBytes a b).value = BitVec.ofNat 8 ((a.toNat + 256 - b.toNat) % 256) := by
  rw [subBytes_eq, ← ofNat_mod_256]

theorem sub_one_eq_zero_iff (a : Byte) : a - 1#8 = 0#8 ↔ a.toNat = 1 := by bv_omega

theorem add_one_eq_zero_iff (a : Byte) : a + 1#8 = 0#8 ↔ a.toNat = 255 := by bv_omega

/-! ## The instructions -/

/-- Settles O45, by the ending of each instruction. -/
theorem nextPcIsOneOfTheListedCases : Obligations.NextPcIsOneOfTheListedCases := by
  intro i s t h
  change GoesTo s t (PcAfter s i)
  cases i with
  | addwf f d => cases h; exact finishDest_goesTo f d (by cases d <;> rfl) (addBytes_value ..)
  | subwf f d => cases h; exact finishDest_goesTo f d (by cases d <;> rfl) (subBytes_value ..)
  | comf f d => cases h; exact finishDest_goesTo f d (by cases d <;> rfl) (not_eq_ofNat _)
  | decf f d => cases h; exact finishDest_goesTo f d (by cases d <;> rfl) (sub_one_eq_ofNat _)
  | incf f d => cases h; exact finishDest_goesTo f d (by cases d <;> rfl) (add_one_eq_ofNat _)
  | rlf f d => cases h; exact finishDest_goesTo f d (by cases d <;> rfl) (rotateLeft_eq_ofNat ..)
  | rrf f d => cases h; exact finishDest_goesTo f d (by cases d <;> rfl) (rotateRight_eq_ofNat ..)
  | swapf f d => cases h; exact finishDest_goesTo f d (by cases d <;> rfl) (swapNibbles_eq_ofNat _)
  | andwf f d | iorwf f d | xorwf f d | movf f d =>
    cases h; exact finishDest_goesTo f d (by cases d <;> rfl) (eq_ofNat_toNat _)
  | movwf f | bcf f b | bsf f b => cases h; exact finishDest_goesTo f .f rfl (eq_ofNat_toNat _)
  | clrf f => cases h; exact finishFile_goesTo s f _
  | decfsz f d => exact finishSkip_goesTo (sub_one_eq_zero_iff _) h
  | incfsz f d => exact finishSkip_goesTo (add_one_eq_zero_iff _) h
  | btfsc f b =>
    cases h
    have hskip := skipIf_goesTo s (¬ (operand s f).testBit b.toNat = true)
    rw [ite_not, decide_not, Bool.decide_eq_true] at hskip
    exact hskip
  | btfss f b =>
    cases h
    have hskip := skipIf_goesTo s ((operand s f).testBit b.toNat = true)
    rw [Bool.decide_eq_true] at hskip
    exact hskip
  | call k => rw [execCall_next h]; exact ⟨rfl, rfl⟩
  | ret | retfie | retlw k => rw [returnToTos_next h]; exact ⟨rfl, rfl⟩
  | option => cases h; exact writeAt_goesTo s _ _
  | tris f =>
    obtain ⟨a, rfl⟩ := execTris_next h
    exact writeAt_goesTo s a s.w
  | _ => cases h; exact ⟨rfl, rfl⟩

end Sys2Proof.Machine
end

section
/-! PROOFS. Which location an operand names under the default addressing, and what is read there (rules R62 to R65, R70, R71). An
address of the default map is a bank and an offset in it; at the offsets of the core registers every bank is the same. -/

namespace Sys2Proof.Machine

/-! ## The default map -/

/-- The offsets at which the default map holds one register in every bank (rule R71). -/
def mirroredOffsets : List Nat := [0x00, 0x02, 0x03, 0x04, 0x0A, 0x0B]

theorem canon_mirrored {d : Device} (h : d.dataMap = defaultMap) {o b : Nat} (ho : o ∈ mirroredOffsets) (hb : b < 4) :
    Device.canon d (128 * b + o) = o := by
  rw [canon_default d h]
  fin_cases ho <;> interval_cases b <;> rfl

/-- Rows of other addresses do not matter to a lookup. -/
theorem mapLookup_filter {p : Nat → Bool} {a : Nat} (ha : p a = true) (m : List (Nat × DataKind)) :
    mapLookup a (m.filter (fun r => p r.1)) = mapLookup a m := by
  induction m with
  | nil => rfl
  | cons r rest ih =>
    obtain ⟨b, k⟩ := r
    by_cases hab : a = b
    · subst hab
      simp [ha, mapLookup]
    · cases hb : p b <;> simp [hb, mapLookup, hab, ih]

/-- What stands at an address of no core register. -/
theorem kindAt_unmirrored {d : Device} (h : d.dataMap = defaultMap) {a : DAddr} (ha : a % 128 ∉ mirroredOffsets) :
    Device.kindAt d a =
      if a = 0x01 then .tmr0 else if a = 0x05 then .port .a else if a = 0x06 then .port .b else if a = 0x07 then .port .c
      else if a = 0x81 then .optionReg else if a = 0x85 then .tris .a else if a = 0x86 then .tris .b
      else if a = 0x87 then .tris .c else .general := by
  have hrow : decide (a % 128 ∉ mirroredOffsets) = true := decide_eq_true ha
  rw [Device.kindAt, h, ← mapLookup_filter (p := fun k => decide (k % 128 ∉ mirroredOffsets)) hrow]
  rfl

theorem canon_unmirrored {d : Device} (h : d.dataMap = defaultMap) {a : DAddr} (ha : a % 128 ∉ mirroredOffsets) :
    Device.canon d a = a := by
  rw [Device.canon, kindAt_unmirrored h ha]
  split_ifs <;> rfl

/-! ## Addresses -/

section
variable {s : State} (h : Device.defaultAddressing s.device)
include h

/-- A direct address is the operand's offset in one of four banks (rule R62). -/
theorem directAddr_bank (f : BitVec 7) : ∃ b : Nat, b < 4 ∧ directAddr s f = 128 * b + f.toNat := by
  obtain ⟨-, hbits, hselect, -⟩ := h
  have hf := f.isLt
  have h6 := (bitOf s.status 6).toNat_lt
  have h5 := (bitOf s.status 5).toNat_lt
  refine ⟨2 * (bitOf s.status 6).toNat + (bitOf s.status 5).toNat, by omega, ?_⟩
  simp only [directAddr, hbits, hselect, defaultBankSelect, selectValue, List.foldl, selectBit]
  show (_ : Nat) = _
  omega

/-- An indirect address is STATUS<7> : FSR (rule R63). -/
theorem indirectAddr_default : indirectAddr s = 256 * (s.status.toNat / 128) + s.fsr.toNat := by
  obtain ⟨-, hbits, -, hselect⟩ := h
  have hs := s.status.isLt
  have hf := s.fsr.isLt
  have h7 : (bitOf s.status 7).toNat = s.status.toNat / 128 := by
    rw [bitOf_seven]
    by_cases hge : 128 ≤ s.status.toNat
    · simp [hge]; omega
    · simp [hge]; omega
  simp only [indirectAddr, hbits, hselect, defaultIrpSelect, selectValue, List.foldl, selectBit, h7]
  show (_ : Nat) = _
  omega

/-- An operand at a mirrored offset but INDF's names that offset (rule R71). -/
theorem fileTarget_mirrored {f : BitVec 7} (hf : f.toNat ∈ mirroredOffsets) (hindf : f ≠ 0x00#7) :
    fileTarget s f = some f.toNat := by
  obtain ⟨b, hb, e⟩ := directAddr_bank h f
  have hk : ∀ o ∈ mirroredOffsets, o ≠ 0 → Device.kindAt defaultDevice o ≠ .indf := by decide
  have hne : f.toNat ≠ 0 := fun h0 => hindf (BitVec.eq_of_toNat_eq h0)
  simp [fileTarget, e, canon_mirrored h.1 hf hb, kindAt_default _ h.1, hk _ hf hne]

end

/-- Settles O32: the five operands are mirrored offsets. -/
theorem coreRegistersInEveryBank : Obligations.CoreRegistersInEveryBank := fun s h =>
  ⟨fileTarget_mirrored h (by decide) (by decide), fileTarget_mirrored h (by decide) (by decide),
    fileTarget_mirrored h (by decide) (by decide), fileTarget_mirrored h (by decide) (by decide),
    fileTarget_mirrored h (by decide) (by decide)⟩

/-! ## INDF -/

section
variable {s : State} (h : Device.defaultAddressing s.device)
include h

/-- In every bank INDF names the location at the indirect address, unless INDF stands there (rule R63). -/
theorem fileTarget_indf :
    fileTarget s 0x00#7 =
      if Device.kindAt s.device (Device.canon s.device (indirectAddr s)) == .indf then none
      else some (Device.canon s.device (indirectAddr s)) := by
  obtain ⟨b, hb, e⟩ := directAddr_bank h 0x00#7
  have hcanon : Device.canon s.device (directAddr s 0x00#7) = 0 := by
    rw [e]
    exact canon_mirrored h.1 (by decide) hb
  have hk : Device.kindAt s.device 0 = .indf := kindAt_default _ h.1 0
  simp [fileTarget, hcanon, hk]

theorem canon_indirectAddr_mirrored (ho : indirectAddr s % 128 ∈ mirroredOffsets) :
    Device.canon s.device (indirectAddr s) = indirectAddr s % 128 := by
  have hlt : indirectAddr s / 128 < 4 := by
    have hs := s.status.isLt
    have hf := s.fsr.isLt
    rw [indirectAddr_default h]
    show (_ : Nat) < 4
    omega
  conv_lhs => rw [← Nat.div_add_mod (indirectAddr s) 128]
  exact canon_mirrored h.1 ho hlt

theorem fileTarget_indf_self (ho : indirectAddr s % 128 = 0) : fileTarget s 0x00#7 = none := by
  have hcanon := canon_indirectAddr_mirrored h (by rw [ho]; decide)
  rw [ho] at hcanon
  have hk : Device.kindAt s.device 0 = .indf := kindAt_default _ h.1 0
  simp [fileTarget_indf h, hcanon, hk]

theorem fileTarget_indf_mirrored (ho : indirectAddr s % 128 ∈ mirroredOffsets) (h0 : indirectAddr s % 128 ≠ 0) :
    fileTarget s 0x00#7 = some (indirectAddr s % 128) := by
  have hk : ∀ o ∈ mirroredOffsets, o ≠ 0 → Device.kindAt defaultDevice o ≠ .indf := by decide
  simp [fileTarget_indf h, canon_indirectAddr_mirrored h ho, kindAt_default _ h.1, hk _ ho h0]

theorem fileTarget_indf_unmirrored (ho : indirectAddr s % 128 ∉ mirroredOffsets) :
    fileTarget s 0x00#7 = some (indirectAddr s) := by
  have hk : Device.kindAt s.device (indirectAddr s) ≠ .indf := by
    rw [kindAt_unmirrored h.1 ho]
    split_ifs <;> simp
  simp [fileTarget_indf h, canon_unmirrored h.1 ho, hk]

/-- INDF names FSR only where FSR names FSR. -/
theorem not_namesKind_fsr_indf (ho : indirectAddr s % 128 ≠ 4) : ¬ NamesKind s 0x00#7 .fsr := by
  have hk : ∀ o ∈ mirroredOffsets, o ≠ 4 → Device.kindAt defaultDevice o ≠ .fsr := by decide
  rintro ⟨a, ha, hfsr⟩
  by_cases h0 : indirectAddr s % 128 = 0
  · simp [fileTarget_indf_self h h0] at ha
  by_cases hm : indirectAddr s % 128 ∈ mirroredOffsets
  · rw [fileTarget_indf_mirrored h hm h0] at ha
    cases ha
    exact hk _ hm ho ((kindAt_default _ h.1 _).symm.trans hfsr)
  · rw [fileTarget_indf_unmirrored h hm] at ha
    cases ha
    rw [kindAt_unmirrored h.1 hm] at hfsr
    split_ifs at hfsr

/-- What stands at an address of no core register reads as (rules R64, R70). -/
theorem readAt_unmirrored {a : DAddr} (ha : a % 128 ∉ mirroredOffsets) :
    readAt s a =
      if a = 0x01 then s.tmr0 else if a = 0x05 then s.pins .a else if a = 0x06 then s.pins .b
      else if a = 0x07 then s.pins .c else if a = 0x81 then s.optionReg else if a = 0x85 then s.portA.tris
      else if a = 0x86 then s.portB.tris else if a = 0x87 then s.portC.tris else Memory.read s.mem a := by
  unfold readAt
  rw [kindAt_unmirrored h.1 ha]
  split_ifs <;> rfl

/-- What a core register reads as (rules R24, R64). -/
theorem readAt_mirrored {o : Nat} (ho : o ∈ mirroredOffsets) :
    readAt s o =
      if o = 0x00 then 0x00#8 else if o = 0x02 then pclValue s else if o = 0x03 then s.status
      else if o = 0x04 then s.fsr else if o = 0x0A then s.pclath else s.intcon := by
  unfold readAt
  rw [kindAt_default _ h.1]
  fin_cases ho <;> rfl

end

/-- Settles O33, by whether FSR's offset is a mirrored one. -/
theorem indirectAddressing : Obligations.IndirectAddressing := by
  intro s h offset address
  have haddr : indirectAddr s = address := indirectAddr_default h
  have hoff : indirectAddr s % 128 = offset := by
    rw [haddr]
    show (256 * (s.status.toNat / 128) + s.fsr.toNat) % 128 = s.fsr.toNat % 128
    omega
  refine ⟨?names, ?reads, fun h4 t he => ?fsr⟩
  case names =>
    split_ifs with h0 hm
    · exact fileTarget_indf_self h (hoff.trans h0)
    · rw [← hoff] at h0 hm ⊢
      exact fileTarget_indf_mirrored h (List.mem_cons_of_mem _ hm) h0
    · rw [fileTarget_indf_unmirrored h, haddr]
      simpa [mirroredOffsets, hoff, h0] using hm
  case reads =>
    by_cases hm : indirectAddr s % 128 ∈ mirroredOffsets
    · have hread : regRead s 0x00#7 = readAt s (indirectAddr s % 128) := by
        by_cases h0 : indirectAddr s % 128 = 0
        · rw [regRead, fileTarget_indf_self h h0, readAt_mirrored h hm, if_pos h0]
        · rw [regRead, fileTarget_indf_mirrored h hm h0]
      rw [hread, readAt_mirrored h hm, hoff]
      rw [hoff] at hm
      simp only [mirroredOffsets, List.mem_cons, List.not_mem_nil, or_false] at hm
      rcases hm with e | e | e | e | e | e <;> simp [e, pclValue_toNat]
    · have hread : regRead s 0x00#7 = readAt s address := by
        rw [regRead, fileTarget_indf_unmirrored h hm, haddr]
      rw [hread, readAt_unmirrored h (haddr ▸ hm)]
      rw [hoff] at hm
      simp only [mirroredOffsets, List.mem_cons, List.not_mem_nil, or_false, not_or] at hm
      obtain ⟨h0, h2, h3, h4, hA, hB⟩ := hm
      simp only [h0, h2, h3, h4, hA, hB, if_false, apply_ite BitVec.toNat]
  case fsr =>
    cases he
    exact (finishFile_coreKept s 0x00#7 s.w).fsr (not_namesKind_fsr_indf h (hoff ▸ h4))

end Sys2Proof.Machine
end

section
/-! PROOFS. What a file register holds after a write and how it reads (rules R29, R31, R64, R65, R70, R231): a general-purpose
register, STATUS behind its write mask, and a port behind its pins. -/

namespace Sys2Proof.Machine

/-! ## A read and a write at a location that is not PCL -/

theorem regRead_at {s : State} {f : BitVec 7} {a : DAddr} (ha : fileTarget s f = some a) : regRead s f = readAt s a := by
  simp [regRead, ha]

/-- Where `f` names a location other than PCL, the ending is a data write there and the next address (rules R25, R65). -/
theorem finishFile_at {s : State} {f : BitVec 7} {a : DAddr} (ha : fileTarget s f = some a)
    (hk : Device.kindAt s.device a ≠ .pcl) (v : Byte) : finishFile s f v = (writeAt s a v).next := by
  simp [finishFile, namesPcl, regWrite, ha, hk]

/-! ## General-purpose registers -/

theorem readAt_general {s : State} {a : DAddr} (hk : Device.kindAt s.device a = .general) :
    readAt s a = Memory.read s.mem a := by
  simp only [readAt, hk]

theorem writeAt_general {s : State} {a : DAddr} (hk : Device.kindAt s.device a = .general) (v : Byte) :
    writeAt s a v = { s with mem := Memory.write s.mem a v } := by
  simp only [writeAt, hk]

/-- Settles O34: the later operand names the cell that was written. -/
theorem writtenByteReadsBack : Obligations.WrittenByteReadsBack := by
  intro s t f g a hf hk he hg
  have ht : t = State.next { s with mem := Memory.write s.mem a s.w } := by
    cases he
    rw [finishFile_at hf (by simp [hk]), writeAt_general hk]
  refine ⟨_, rfl, ?_⟩
  show regRead t g = s.w
  rw [regRead_at hg, readAt_general (by rw [ht]; exact hk), ht]
  exact Memory.read_write_same ..

/-! ## STATUS -/

/-- A 0 written through the default mask leaves TO and PD (rule R31). -/
theorem mergeMask_default_zero_toNat (v : Byte) :
    (setBit (mergeMask 0xE7#8 0x00#8 v) bitZ true).toNat = v.toNat / 8 % 4 * 8 + 4 := by
  revert v
  decide

/-- Settles O35: the write goes through the mask, and Z is set after it. -/
theorem clrfStatusKeepsToAndPd : Obligations.ClrfStatusKeepsToAndPd := by
  intro s f a hf hk
  have hstatus : ((finishFile s f 0x00#8).setZ 0x00#8).status
      = setBit (mergeMask s.device.statusWriteMask 0x00#8 s.status) bitZ true := by
    rw [finishFile_at hf (by simp [hk])]
    simp [writeAt, hk]
  refine ⟨_, rfl, fun hmask => ?_, fun hmask => ?_⟩ <;> rw [hstatus, hmask]
  · exact mergeMask_default_zero_toNat s.status
  · have hall : mergeMask 0xFF#8 0x00#8 s.status = 0x00#8 := by simp [mergeMask]
    rw [hall]
    rfl

/-! ## Ports -/

/-- A pin reads the outside's level where it is an input or overdriven, and its latch bit otherwise (rule R70). -/
theorem pins_bit {s : State} {p : PortId} {drive : PinDrive} (hd : (s.port p).pins = some drive) (k : Nat) :
    (s.pins p).getLsbD k =
      if (s.port p).tris.getLsbD k || drive.overdriven.getLsbD k then drive.level.getLsbD k
      else (s.port p).latch.getLsbD k := by
  simp only [State.pins, hd, mergeMask_bit, BitVec.getLsbD_or]

/-- A data write to a port, with the flags after it, changes its latch alone (rule R65). -/
theorem port_finishFile_setZ {s : State} {f : BitVec 7} {a : DAddr} {p : PortId} (hf : fileTarget s f = some a)
    (hk : Device.kindAt s.device a = .port p) (v r : Byte) :
    (((finishFile s f v).setZ r).port p).latch = v ∧ (((finishFile s f v).setZ r).port p).tris = (s.port p).tris := by
  have hwrite : writeAt s a v = s.setLatch p v := by simp only [writeAt, hk]
  have hafter : ∀ t : State, (t.next.setZ r).port p = t.port p := fun t => by cases p <;> rfl
  rw [finishFile_at hf (by simp [hk]), hwrite, hafter, State.setLatch, State.port_setPort, if_pos rfl]
  exact ⟨rfl, rfl⟩

/-- Settles O36: a port reads as its pins, and the write of what was read goes to the latch alone. -/
theorem portReadsPinsAndRewritesLatch : Obligations.PortReadsPinsAndRewritesLatch := by
  intro s f a p hf hk
  have hread : regRead s f = s.pins p := by
    rw [regRead_at hf]
    simp only [readAt, hk]
  refine ⟨fun drive hd k _ => ?_, _, rfl, port_finishFile_setZ hf hk _ _⟩
  rw [hread]
  exact pins_bit hd k

end Sys2Proof.Machine
end

section
/-! PROOFS. CLRWDT and SLEEP, OPTION and TRIS, and interrupt entry (rules R176, R177, R185 to R187, R196). -/

namespace Sys2Proof.Machine

/-- The encoding of an instruction that one word alone encodes is what that word decodes to. -/
theorem encodes_of_decode {word : OpWord} {i : Instr} (h : decode word = .ok i) : Encodes word 0x3FFF#14 (fun _ => i) := by
  intro w hw
  obtain rfl := eq_of_whole_mask hw
  exact h

/-! ## CLRWDT and SLEEP -/

/-- Settles O27: the two flags are written past the write mask. -/
theorem clrwdtResult : Obligations.ClrwdtResult := by
  refine ⟨encodes_of_decode rfl, fun s => ?_⟩
  obtain ⟨hto, hpd, hother⟩ := setToPd_bits s.status true true
  exact ⟨_, rfl, hto, hpd, hother, rfl⟩

/-- Settles O28: SLEEP does as CLRWDT but for PD and the core's sleep. -/
theorem sleepResult : Obligations.SleepResult := by
  refine ⟨encodes_of_decode rfl, fun s => ?_⟩
  obtain ⟨hto, hpd, hother⟩ := setToPd_bits s.status true false
  exact ⟨_, rfl, hto, hpd, hother, rfl⟩

/-! ## OPTION and TRIS -/

/-- A data write at an OPTION register or at nothing. -/
theorem writeAt_optionTarget {s : State} (h : Device.wf s.device = true) (v : Byte) :
    writeAt s s.device.optionTarget v = { s with
      optionReg := if Device.kindAt s.device s.device.optionTarget = .unimplemented then s.optionReg else v } := by
  obtain ⟨hk | hk, -⟩ := wf_targets h <;> simp [writeAt, hk]

/-- Settles O29, by what a data write at the target is. -/
theorem optionResult : Obligations.OptionResult := by
  refine ⟨encodes_of_decode rfl, fun s hdev => ?_⟩
  show Host.Outcome.next (writeAt s s.device.optionTarget s.w).next = _
  rw [writeAt_optionTarget hdev]
  rfl

/-- A data write at a TRIS register or at nothing. -/
theorem writeAt_tris {s : State} {a : DAddr} {p : PortId}
    (h : Device.kindAt s.device a = .tris p ∨ Device.kindAt s.device a = .unimplemented) (v : Byte) :
    writeAt s a v = if Device.kindAt s.device a = .unimplemented then s else s.setTris p v := by
  rcases h with hk | hk <;> simp [writeAt, hk]

theorem exec_tris {s : State} {f : BitVec 3} {a : DAddr} (h : trisTarget s.device f = some a) :
    exec (.tris f) s = .next (writeAt s a s.w).next := by
  show execTris f s = _
  rw [execTris, h]

theorem trisTarget_illFormed (d : Device) {f : BitVec 3} (h : (Instr.tris f).wellFormed = false) : trisTarget d f = none := by
  have hne : f ≠ 5#3 ∧ f ≠ 6#3 ∧ f ≠ 7#3 := by revert f; decide
  simp [trisTarget, hne]

/-- Settles O30, by what a data write at each target is. -/
theorem trisResult : Obligations.TrisResult := by
  refine ⟨encodes_of_decode rfl, encodes_of_decode rfl, encodes_of_decode rfl, fun s hdev => ?_⟩
  obtain ⟨-, h5, h6, h7⟩ := wf_targets hdev
  refine ⟨?tris5, ?tris6, ?tris7, fun f hf => ?other⟩
  case tris5 => rw [exec_tris rfl, writeAt_tris h5]; split_ifs <;> rfl
  case tris6 => rw [exec_tris rfl, writeAt_tris h6]; split_ifs <;> rfl
  case tris7 => rw [exec_tris rfl, writeAt_tris h7]; split_ifs <;> rfl
  case other => show execTris f s = _; rw [execTris, trisTarget_illFormed s.device hf]

/-! ## Interrupt entry -/

/-- Settles O46: the pushed pc is on top, and GIE is the one bit of INTCON that the entry writes. -/
theorem interruptEntryResult : Obligations.InterruptEntryResult := by
  intro s hroom hptr
  refine ⟨State.jump { pushSlot s s.pc with intcon := setBit s.intcon bitGIE false } s.device.intVector, ?_, rfl,
    tos_pushSlot s _ hptr, pushedOne_pushSlot s _, bitOf_setBit_same _ _ _ (by decide),
    setBit_outside _ _ _ 0x80#8 (by decide), rfl⟩
  rw [enterInterrupt, push_of_canPush hroom]
  rfl

end Sys2Proof.Machine
end

section
/-! PROOFS. Timer0 (rules R203, R234). Its clocks add up whatever boundaries hand them over, since the prescaler's ratio divides
256; what a boundary hands over are the elapsed cycles or the T0CKI pin's edges, less those that a write to TMR0 inhibits. -/

namespace Sys2Proof.Machine

/-! ## Clocks add up -/

theorem countTmr0_countTmr0 (s : State) (n m : Nat) : countTmr0 (countTmr0 s n) m = countTmr0 s (n + m) := by
  have htmr0 : BitVec.ofNat 8 ((s.tmr0.toNat + n) % 256 + m) = BitVec.ofNat 8 (s.tmr0.toNat + (n + m)) := by
    apply BitVec.eq_of_toNat_eq
    simp only [BitVec.toNat_ofNat]
    omega
  have hset : setBit (setBit s.intcon bitT0IF true) bitT0IF true = setBit s.intcon bitT0IF true := by
    simp only [setBit, if_true, BitVec.or_assoc, BitVec.or_self]
  have hintcon : (if 256 ≤ (s.tmr0.toNat + n) % 256 + m
        then setBit (if 256 ≤ s.tmr0.toNat + n then setBit s.intcon bitT0IF true else s.intcon) bitT0IF true
        else if 256 ≤ s.tmr0.toNat + n then setBit s.intcon bitT0IF true else s.intcon)
      = if 256 ≤ s.tmr0.toNat + (n + m) then setBit s.intcon bitT0IF true else s.intcon := by
    have hwrap : 256 ≤ s.tmr0.toNat + (n + m) ↔ 256 ≤ s.tmr0.toNat + n ∨ 256 ≤ (s.tmr0.toNat + n) % 256 + m := by omega
    by_cases hn : 256 ≤ s.tmr0.toNat + n <;> by_cases hm : 256 ≤ (s.tmr0.toNat + n) % 256 + m <;>
      simp only [hwrap, hn, hm, hset, or_true, or_false, if_true, if_false]
  simp only [countTmr0, BitVec.toNat_ofNat, Nat.reducePow, htmr0, hintcon]

theorem timer0Ratio_dvd (s : State) : timer0Ratio s ∣ 256 := by
  have hn := (s.optionReg.extractLsb' 0 3).isLt
  exact Nat.pow_dvd_pow (n := 8) 2 (by omega)

/-- What a count of `p`, kept modulo 256, passes on in `n` and then `m` clocks is what it passes on in `n + m`. -/
theorem passedOn_add {r : Nat} (hr : r ∣ 256) (p n m : Nat) :
    (p + n) / r - p / r + (((p + n) % 256 + m) / r - (p + n) % 256 / r) = (p + (n + m)) / r - p / r := by
  obtain ⟨q, hq⟩ := hr
  have hpos : 0 < r := by
    rcases Nat.eq_zero_or_pos r with rfl | h
    · omega
    · exact h
  have hsplit : p + n = r * (q * ((p + n) / 256)) + (p + n) % 256 := by
    rw [← Nat.mul_assoc, ← hq, Nat.div_add_mod]
  have hn : (p + n) / r = q * ((p + n) / 256) + (p + n) % 256 / r := by
    conv_lhs => rw [hsplit, Nat.mul_add_div hpos]
  have hnm : (p + (n + m)) / r = q * ((p + n) / 256) + ((p + n) % 256 + m) / r := by
    conv_lhs => rw [← Nat.add_assoc, hsplit, Nat.add_assoc, Nat.mul_add_div hpos]
  have hle : p / r ≤ (p + n) / r := Nat.div_le_div_right (Nat.le_add_right p n)
  have hle' : (p + n) % 256 / r ≤ ((p + n) % 256 + m) / r := Nat.div_le_div_right (Nat.le_add_right _ m)
  omega

theorem clockTimer0_onWdt {s : State} (h : prescalerOnWdt s = true) (n : Nat) : clockTimer0 s n = countTmr0 s n := by
  rw [clockTimer0, if_pos h]

/-- The state with another count in the prescaler. -/
def State.setPrescaler (s : State) (v : Byte) : State := { s with prescaler := v }

theorem clockTimer0_prescaled {s : State} (h : prescalerOnWdt s = false) (n : Nat) :
    clockTimer0 s n = countTmr0 (s.setPrescaler (BitVec.ofNat 8 (s.prescaler.toNat + n)))
      ((s.prescaler.toNat + n) / timer0Ratio s - s.prescaler.toNat / timer0Ratio s) := by
  rw [clockTimer0, if_neg (by simp [h])]
  rfl

/-- Settles O56: with the prescaler on the WDT the counts add up, otherwise what it passes on does. -/
theorem timer0ClocksAddUp : Obligations.Timer0ClocksAddUp := by
  intro s n m
  cases h : prescalerOnWdt s with
  | true =>
    rw [clockTimer0_onWdt h, clockTimer0_onWdt (s := countTmr0 s n) h, clockTimer0_onWdt h, countTmr0_countTmr0]
  | false =>
    have hpre : BitVec.ofNat 8 ((s.prescaler.toNat + n) % 256 + m) = BitVec.ofNat 8 (s.prescaler.toNat + (n + m)) := by
      apply BitVec.eq_of_toNat_eq
      simp only [BitVec.toNat_ofNat]
      omega
    rw [clockTimer0_prescaled h (n + m), ← passedOn_add (timer0Ratio_dvd s), ← countTmr0_countTmr0, ← hpre,
      clockTimer0_prescaled h n]
    generalize (s.prescaler.toNat + n) / timer0Ratio s - s.prescaler.toNat / timer0Ratio s = k
    exact clockTimer0_prescaled (s := countTmr0 (s.setPrescaler (BitVec.ofNat 8 (s.prescaler.toNat + n))) k) h m

/-! ## What a number of clocks adds to the count -/

/-- What Timer0 counts of `n` clocks from a cleared prescaler: one per `2^(PS+1)`, or all with the prescaler on the WDT. -/
def countedClocks (s : State) (n : Nat) : Nat :=
  if s.optionReg.getLsbD 3 then n else n / 2 ^ ((s.optionReg.extractLsb' 0 3).toNat + 1)

/-- TMR0 and INTCON after `n` clocks (rule R203). -/
theorem clockTimer0_counts {s : State} (h : s.optionReg.getLsbD 3 = true ∨ s.prescaler = 0#8) (n : Nat) :
    (clockTimer0 s n).tmr0 = BitVec.ofNat 8 (s.tmr0.toNat + countedClocks s n)
    ∧ (clockTimer0 s n).intcon = if 256 ≤ s.tmr0.toNat + countedClocks s n then s.intcon ||| 0x04#8 else s.intcon := by
  cases hp : s.optionReg.getLsbD 3 with
  | true =>
    rw [clockTimer0_onWdt hp, countedClocks, if_pos hp]
    exact ⟨rfl, rfl⟩
  | false =>
    have h0 : s.prescaler = 0#8 := h.resolve_left (by rw [hp]; exact Bool.false_ne_true)
    have hcount : (s.prescaler.toNat + n) / timer0Ratio s - s.prescaler.toNat / timer0Ratio s = countedClocks s n := by
      rw [h0, countedClocks, hp, if_neg Bool.false_ne_true, BitVec.toNat_zero, Nat.zero_add, Nat.zero_div, Nat.sub_zero]
      rfl
    rw [clockTimer0_prescaled hp, hcount]
    exact ⟨rfl, rfl⟩

/-! ## What a boundary hands over -/

/-- The elapsed cycles taken off Timer0's inhibit (rule R203). -/
def State.handOver (s : State) : State := { s with elapsed := 0, t0Inhibit := s.t0Inhibit - s.elapsed }

theorem runTimer0_eq (s : State) :
    runTimer0 s = if s.optionReg.getLsbD 5 then s.handOver else clockTimer0 s.handOver (s.elapsed - s.t0Inhibit) := by
  have hinhibit : s.t0Inhibit - min s.elapsed s.t0Inhibit = s.t0Inhibit - s.elapsed := by omega
  have hclocks : s.elapsed - min s.elapsed s.t0Inhibit = s.elapsed - s.t0Inhibit := by omega
  rw [runTimer0, hinhibit, hclocks]
  rfl

/-- With external edges a boundary gives the elapsed cycles to the inhibit alone. -/
theorem runTimer0_external {s : State} (h : s.optionReg.getLsbD 5 = true) : runTimer0 s = s.handOver := by
  rw [runTimer0_eq, if_pos h]

/-- With the instruction clock it gives Timer0 those elapsed after the inhibit (rule R203). -/
theorem runTimer0_internal {s : State} (h : s.optionReg.getLsbD 5 = false) :
    runTimer0 s = clockTimer0 s.handOver (s.elapsed - s.t0Inhibit) := by
  rw [runTimer0_eq, h, if_neg Bool.false_ne_true]

theorem runTimer0_t0Inhibit (s : State) : (runTimer0 s).t0Inhibit = s.t0Inhibit - s.elapsed := by
  cases h : s.optionReg.getLsbD 5
  · rw [runTimer0_internal h, clockTimer0_t0Inhibit]
    rfl
  · rw [runTimer0_external h]
    rfl

theorem t0ckiSelected_eq (s : State) (e : Edge) :
    t0ckiSelected s e = decide (e = if s.optionReg.getLsbD 4 then Edge.falling else Edge.rising) := by
  unfold t0ckiSelected bitOf
  cases s.optionReg.getLsbD 4 <;> cases e <;> rfl

theorem t0ckiClocks_external {s : State} (h : s.optionReg.getLsbD 5 = true) (edges : List (Nat × Edge)) :
    t0ckiClocks s edges = CountedEdges s edges := by
  rw [t0ckiClocks, timer0External, bitOf, if_pos h, CountedEdges, List.countP_eq_length_filter]
  simp only [t0ckiSelected_eq, t0ckiUninhibited]

/-- TMR0 and INTCON after a boundary with external edges (rule R203). -/
theorem applyInput_counts {s : State} (h5 : s.optionReg.getLsbD 5 = true)
    (hp : s.optionReg.getLsbD 3 = true ∨ s.prescaler = 0#8) (inp : Input) :
    (applyInput s inp).tmr0 = BitVec.ofNat 8 (s.tmr0.toNat + countedClocks s (CountedEdges s inp.t0cki))
    ∧ (applyInput s inp).intcon =
        (if 256 ≤ s.tmr0.toNat + countedClocks s (CountedEdges s inp.t0cki) then s.intcon ||| 0x04#8 else s.intcon)
        ||| raisedFlags s inp := by
  obtain ⟨htmr0, hintcon⟩ := clockTimer0_counts (s := s.handOver) hp (CountedEdges s inp.t0cki)
  have he : clockTimer0 (runTimer0 s) (t0ckiClocks s inp.t0cki) = clockTimer0 s.handOver (CountedEdges s inp.t0cki) := by
    rw [runTimer0_external h5, t0ckiClocks_external h5]
  exact ⟨(congrArg State.tmr0 he).trans htmr0,
    congrArg (· ||| raisedFlags s inp) ((congrArg State.intcon he).trans hintcon)⟩

/-! ## The flags that the device sets (rules R193, R195) -/

/-- The edge of the INT pin that INTEDG selects. -/
def selectedIntEdge (s : State) : Edge := if s.optionReg.getLsbD 6 then .rising else .falling

theorem raisedFlags_eq (s : State) (inp : Input) :
    raisedFlags s inp = (inp.raise &&& 0x07#8) ||| (if inp.intEdge = some (selectedIntEdge s) then 0x02#8 else 0x00#8)
      ||| (if portBChange s inp then 0x01#8 else 0x00#8) := by
  have hsel : ∀ e, intEdgeSelected s e = decide (e = selectedIntEdge s) := by
    intro e
    unfold intEdgeSelected selectedIntEdge bitOf
    cases s.optionReg.getLsbD 6 <;> cases e <;> rfl
  unfold raisedFlags
  cases inp.intEdge <;> simp [hsel]

/-- T0IF is set where the input raises it. -/
theorem raisedFlags_t0if (s : State) (inp : Input) : (raisedFlags s inp).getLsbD 2 = inp.raise.getLsbD 2 := by
  rw [raisedFlags_eq]
  split_ifs <;> simp

/-- INTF is set where the input raises it or has the selected edge. -/
theorem raisedFlags_intf (s : State) (inp : Input) :
    (raisedFlags s inp).getLsbD 1 = true ↔ inp.raise.getLsbD 1 = true ∨ inp.intEdge = some (selectedIntEdge s) := by
  rw [raisedFlags_eq]
  split_ifs with he <;> simp [he]

/-- RBIF is set where the input raises it or changes an input pin of port B. -/
theorem raisedFlags_rbif (s : State) (inp : Input) :
    (raisedFlags s inp).getLsbD 0 = true ↔ inp.raise.getLsbD 0 = true ∨ portBChange s inp = true := by
  rw [raisedFlags_eq]
  split_ifs with he hc hc <;> simp [hc]

/-- Settles O57, by what the clocks of each source add to the count. -/
theorem timer0CountsCycles : Obligations.Timer0CountsCycles := by
  refine ⟨fun s h5 hinhibit hpre => ?cycles, fun s inp h5 hpre => ?edges⟩
  case cycles =>
    obtain ⟨htmr0, hintcon⟩ := clockTimer0_counts
      (s := s.handOver) (.inr hpre) (s.elapsed - s.t0Inhibit)
    rw [← runTimer0_internal h5, hinhibit] at htmr0 hintcon
    exact ⟨by rw [htmr0, BitVec.toNat_ofNat]; rfl, hintcon, runTimer0_elapsed s⟩
  case edges =>
    obtain ⟨htmr0, hintcon⟩ := applyInput_counts h5 (.inr hpre) inp
    refine ⟨by rw [htmr0, BitVec.toNat_ofNat]; rfl, ?_⟩
    rw [hintcon, BitVec.getLsbD_or, raisedFlags_t0if]
    change _ ↔ _ ∨ _ ∨ 256 ≤ s.tmr0.toNat + countedClocks s (CountedEdges s inp.t0cki)
    split_ifs with hwrap
    · simp [hwrap]
    · simp [hwrap]


/-! ## The inhibit after a write to TMR0 (rule R234) -/

/-- No edge counts where the inhibit outlasts the elapsed cycles. -/
theorem countedEdges_inhibited {s : State} (h : s.elapsed - 1 < s.t0Inhibit) (edges : List (Nat × Edge)) :
    CountedEdges s edges = 0 := by
  rw [CountedEdges, List.countP_eq_zero]
  intro e _
  have hin : ¬ s.t0Inhibit ≤ min e.1 (s.elapsed - 1) := by omega
  simp [hin]

/-- With the prescaler on the WDT and external edges, a boundary adds the edges that count. -/
theorem applyInput_tmr0_external {s : State} (h5 : s.optionReg.getLsbD 5 = true) (h3 : s.optionReg.getLsbD 3 = true)
    (inp : Input) : (applyInput s inp).tmr0 = BitVec.ofNat 8 (s.tmr0.toNat + CountedEdges s inp.t0cki) := by
  rw [(applyInput_counts h5 (.inl h3) inp).1, countedClocks, if_pos h3]

/-- So it leaves the count where the inhibit outlasts the elapsed cycles. -/
theorem applyInput_tmr0_inhibited {s : State} (h5 : s.optionReg.getLsbD 5 = true) (h3 : s.optionReg.getLsbD 3 = true)
    (h : s.elapsed - 1 < s.t0Inhibit) (inp : Input) : (applyInput s inp).tmr0 = s.tmr0 := by
  rw [applyInput_tmr0_external h5 h3, countedEdges_inhibited h, Nat.add_zero, BitVec.ofNat_toNat, BitVec.setWidth_eq]

theorem applyInput_t0Inhibit_eq (s : State) (inp : Input) : (applyInput s inp).t0Inhibit = s.t0Inhibit - s.elapsed := by
  rw [← runTimer0_t0Inhibit]
  exact clockTimer0_t0Inhibit ..

/-- With the prescaler on the WDT and the instruction clock, it adds the cycles elapsed after the inhibit. -/
theorem runTimer0_tmr0_internal {s : State} (h5 : s.optionReg.getLsbD 5 = false) (h3 : s.optionReg.getLsbD 3 = true) :
    (runTimer0 s).tmr0 = BitVec.ofNat 8 (s.tmr0.toNat + (s.elapsed - s.t0Inhibit)) := by
  rw [runTimer0_internal h5, (clockTimer0_counts (s := s.handOver) (.inl h3) _).1, countedClocks]
  exact congrArg (BitVec.ofNat 8) (congrArg (s.tmr0.toNat + ·) (if_pos h3))

/-- MOVWF to TMR0 leaves W there, and three cycles inhibited of which its own has elapsed. -/
theorem execMovwf_tmr0 {s t : State} {f : BitVec 7} {a : DAddr} (hf : fileTarget s f = some a)
    (hk : Device.kindAt s.device a = .tmr0) (he : exec (.movwf f) s = .next t) :
    t.tmr0 = s.w ∧ t.t0Inhibit = 3 ∧ t.elapsed = s.elapsed + 1 ∧ t.optionReg = s.optionReg := by
  cases he
  rw [finishFile_at hf (by simp [hk])]
  simp [writeAt, hk, writeTmr0]

/-- Timer0 in `u` counts by T0CKI edges with the prescaler on the WDT, stands at `c`, and is inhibited for `n` more cycles. -/
structure InhibitedAt (u : State) (c : Byte) (n : Nat) : Prop where
  external : u.optionReg.getLsbD 5 = true
  onWdt : u.optionReg.getLsbD 3 = true
  tmr0 : u.tmr0 = c
  inhibit : u.t0Inhibit = n

/-- A boundary takes the elapsed cycles off the inhibit, and within it leaves the count. -/
theorem InhibitedAt.applyInput {u : State} {c : Byte} {n : Nat} (h : InhibitedAt u c n) (hn : u.elapsed - 1 < n)
    (inp : Input) : InhibitedAt (applyInput u inp) c (n - u.elapsed) where
  external := by rw [applyInput_optionReg]; exact h.external
  onWdt := by rw [applyInput_optionReg]; exact h.onWdt
  tmr0 := (applyInput_tmr0_inhibited h.external h.onWdt (by rw [h.inhibit]; exact hn) inp).trans h.tmr0
  inhibit := by rw [applyInput_t0Inhibit_eq, h.inhibit]

/-- Settles O58: three cycles are inhibited, however they are handed over. -/
theorem timer0InhibitedAfterWrite : Obligations.Timer0InhibitedAfterWrite := by
  intro s t f a hf hk helapsed h3 he
  obtain ⟨htmr0, hinhibit, helapsed', hoption⟩ := execMovwf_tmr0 hf hk he
  rw [helapsed] at helapsed'
  rw [← hoption] at h3 ⊢
  rw [← htmr0]
  refine ⟨fun h5 => ⟨fun n hn => ?within, ?third⟩, fun h5 inp => ?external⟩
  case within =>
    have h0 : t.elapsed + n - t.t0Inhibit = 0 := by omega
    have hcount := runTimer0_tmr0_internal (s := { t with elapsed := t.elapsed + n }) h5 h3
    rw [h0] at hcount
    simpa using hcount
  case third =>
    have h1 : t.elapsed + 3 - t.t0Inhibit = 1 := by omega
    have hcount := runTimer0_tmr0_internal (s := { t with elapsed := t.elapsed + 3 }) h5 h3
    rw [h1] at hcount
    rw [hcount]
    bv_omega
  case external =>
    have ht : InhibitedAt t t.tmr0 3 := ⟨h5, h3, rfl, hinhibit⟩
    have hfirst : InhibitedAt (applyInput t inp) t.tmr0 2 := by
      simpa only [helapsed'] using ht.applyInput (by omega) inp
    have hgiven : ∀ {u : State} {k : Nat} (e : Nat), InhibitedAt u t.tmr0 k → InhibitedAt { u with elapsed := e } t.tmr0 k :=
      fun _ hu => ⟨hu.external, hu.onWdt, hu.tmr0, hu.inhibit⟩
    refine ⟨hfirst.tmr0, fun next n hn => ?one, fun next last => ?two, ?counted⟩
    case one =>
      exact ((hgiven n hfirst).applyInput (show n - 1 < 2 by omega) next).tmr0
    case two =>
      have hsecond := (hgiven 1 hfirst).applyInput (show 1 - 1 < 2 by omega) next
      exact ((hgiven 1 hsecond).applyInput (show 1 - 1 < 2 - 1 by omega) last).tmr0
    case counted =>
      have hthird := hgiven 3 hfirst
      have hone : CountedEdges { applyInput t inp with elapsed := 3 }
          [(2, if t.optionReg.getLsbD 4 then Edge.falling else Edge.rising)] = 1 := by
        simp [CountedEdges, hfirst.inhibit]
      rw [applyInput_tmr0_external hthird.external hthird.onWdt, hone, hthird.tmr0]
      bv_omega

end Sys2Proof.Machine
end

section
/-! PROOFS. An instruction boundary (rule R211, steps 0 to 3): what its events leave of INTCON and, where there are none, of the
whole state; which way an awake and a sleeping core go on from it; and so when an interrupt is entered and what wakes the core. -/

namespace Sys2Proof.Machine

/-! ## INTCON -/

/-- `new` is `old`, or `old` with T0IF set. -/
def MaySetT0if (old new : Byte) : Prop := new = old ∨ new = old ||| 0x04#8

theorem MaySetT0if.trans {a b c : Byte} (h : MaySetT0if a b) (h' : MaySetT0if b c) : MaySetT0if a c := by
  rcases h with rfl | rfl <;> rcases h' with rfl | rfl
  · exact .inl rfl
  · exact .inr rfl
  · exact .inr rfl
  · exact .inr (by rw [BitVec.or_assoc, BitVec.or_self])

theorem MaySetT0if.bit {old new : Byte} (h : MaySetT0if old new) {k : Nat} (hk : k ≠ 2) :
    new.getLsbD k = old.getLsbD k := by
  rcases h with rfl | rfl
  · rfl
  · have h4 : (0x04#8 : Byte).getLsbD k = false := by
      show (BitVec.twoPow 8 2).getLsbD k = false
      rw [BitVec.getLsbD_twoPow, decide_eq_false hk.symm, Bool.and_false]
    rw [BitVec.getLsbD_or, h4, Bool.or_false]

theorem countTmr0_maySetT0if (s : State) (n : Nat) : MaySetT0if s.intcon (countTmr0 s n).intcon := by
  unfold countTmr0
  dsimp only
  split_ifs
  · exact .inr rfl
  · exact .inl rfl

theorem clockTimer0_maySetT0if (s : State) (n : Nat) : MaySetT0if s.intcon (clockTimer0 s n).intcon := by
  cases h : prescalerOnWdt s with
  | true => rw [clockTimer0_onWdt h]; exact countTmr0_maySetT0if s n
  | false => rw [clockTimer0_prescaled h]; exact countTmr0_maySetT0if (s.setPrescaler _) _

theorem runTimer0_maySetT0if (s : State) : MaySetT0if s.intcon (runTimer0 s).intcon := by
  rw [runTimer0_eq]
  split_ifs
  · exact .inl rfl
  · exact clockTimer0_maySetT0if s.handOver _

/-- INTCON after a boundary's events: T0IF of Timer0's own roll-over, and the flags that the device sets. -/
theorem applyInput_intcon_eq (s : State) (inp : Input) :
    ∃ x, MaySetT0if s.intcon x ∧ (applyInput s inp).intcon = x ||| raisedFlags s inp :=
  ⟨_, (runTimer0_maySetT0if s).trans (clockTimer0_maySetT0if _ _), rfl⟩

theorem raisedFlags_high (s : State) (inp : Input) {k : Nat} (hk : 3 ≤ k) : (raisedFlags s inp).getLsbD k = false := by
  have h7 : (0x07#8 : Byte).getLsbD k = false :=
    Nat.testBit_eq_false_of_lt (Nat.lt_of_lt_of_le (by decide) (Nat.pow_le_pow_right (by decide : 0 < 2) hk))
  rw [raisedFlags_low, BitVec.getLsbD_and, h7, Bool.and_false]

/-- GIE and the enable bits stay. -/
theorem applyInput_intcon_high (s : State) (inp : Input) {k : Nat} (hk : 3 ≤ k) :
    (applyInput s inp).intcon.getLsbD k = s.intcon.getLsbD k := by
  obtain ⟨x, hx, e⟩ := applyInput_intcon_eq s inp
  rw [e, BitVec.getLsbD_or, raisedFlags_high s inp hk, hx.bit (by omega), Bool.or_false]

/-- Of the flags but T0IF, those are set that were or that the device sets. -/
theorem applyInput_intcon_low (s : State) (inp : Input) {k : Nat} (hk : k < 2) :
    (applyInput s inp).intcon.getLsbD k = true ↔ s.intcon.getLsbD k = true ∨ (raisedFlags s inp).getLsbD k = true := by
  obtain ⟨x, hx, e⟩ := applyInput_intcon_eq s inp
  rw [e, BitVec.getLsbD_or, hx.bit (by omega), Bool.or_eq_true]

theorem ne_zero_iff_bit (v : Byte) : v ≠ 0#8 ↔ ∃ k, k < 8 ∧ v.getLsbD k = true := by
  constructor
  · intro h
    by_contra! hall
    exact h (BitVec.eq_of_getLsbD_eq fun k hk => by simpa using hall k hk)
  · rintro ⟨k, _, hk⟩ rfl
    simp at hk

/-- A masked difference of two levels is a pin among 7:4 that the mask keeps and whose levels differ. -/
theorem levelChange_iff (old new tris : Byte) : (old ^^^ new) &&& tris &&& 0xF0#8 ≠ 0#8 ↔
    ∃ k, 4 ≤ k ∧ k < 8 ∧ tris.getLsbD k = true ∧ old.getLsbD k ≠ new.getLsbD k := by
  have hF0 : ∀ k < 8, ((0xF0#8 : Byte).getLsbD k = true ↔ 4 ≤ k) := by decide
  rw [ne_zero_iff_bit]
  refine exists_congr fun k => ?_
  rw [BitVec.getLsbD_and, BitVec.getLsbD_and, BitVec.getLsbD_xor, Bool.and_eq_true, Bool.and_eq_true, bne_iff_ne]
  constructor
  · rintro ⟨hk, ⟨hne, ht⟩, h4⟩
    exact ⟨(hF0 k hk).1 h4, hk, ht, hne⟩
  · rintro ⟨h4, hk, ht, hne⟩
    exact ⟨hk, ⟨hne, ht⟩, (hF0 k hk).2 h4⟩

/-- A port B change is a level of an input pin among 7:4 that is another in the new drive. -/
theorem portBChange_iff (s : State) (inp : Input) : portBChange s inp = true ↔
    ∃ old new k, s.portB.pins = some old ∧ inp.pinsB = some new ∧ 4 ≤ k ∧ k < 8
      ∧ s.portB.tris.getLsbD k = true ∧ old.level.getLsbD k ≠ new.level.getLsbD k := by
  unfold portBChange
  cases hold : s.portB.pins with
  | none => simp
  | some old =>
    cases hnew : inp.pinsB with
    | none => simp
    | some new => simpa using levelChange_iff old.level new.level s.portB.tris

/-- A step that goes on to run or to an entry has INTCON as the boundary's events left it. -/
theorem turn_intcon {s t : State} (h : turn s = .run t ∨ turn s = .interrupt t) :
    t.intcon = (applyInput s s.input).intcon := by
  rcases turn_cases s with ⟨_, e⟩ | ⟨_, e⟩ | ⟨_, _, _, e⟩ | ⟨_, _, _, _, e⟩ | ⟨_, _, _, _, e⟩ | ⟨_, _, _, _, e⟩
    | ⟨_, _, _, _, e⟩ | ⟨_, _, _, e | ⟨_, e⟩⟩ <;> rw [e] at h <;> rcases h with h | h <;> cases h <;> rfl

/-- Settles O50, bit by bit. -/
theorem boundaryOnlySetsFlagBits : Obligations.BoundaryOnlySetsFlagBits := by
  intro s t h
  rw [turn_intcon h]
  refine ⟨?kept, ?set, ?intf, ?rbif⟩
  case intf => rw [applyInput_intcon_low s _ (by decide), raisedFlags_intf]; rfl
  case rbif => rw [applyInput_intcon_low s _ (by decide), raisedFlags_rbif, portBChange_iff]
  case kept =>
    obtain ⟨m, e⟩ := applyInput_intcon s s.input
    rw [e, BitVec.and_or_distrib_right, BitVec.and_assoc]
    have hdisjoint : (0x07#8 : Byte) &&& 0xF8#8 = 0#8 := by decide
    rw [hdisjoint, BitVec.and_zero, BitVec.or_zero]
  case set =>
    obtain ⟨m, e⟩ := applyInput_intcon s s.input
    rw [e, BitVec.not_or, ← BitVec.and_assoc, BitVec.and_not_self]
    exact BitVec.zero_and

end Sys2Proof.Machine
end

section
/-! PROOFS. How the core goes on from a boundary (rules R194, R198, R204, R205, R209 to R211): an awake core runs or enters an
interrupt, a sleeping one sleeps on or is woken, and where the environment does nothing only Timer0's part has changed. -/

namespace Sys2Proof.Machine

/-! ## A boundary where the environment does nothing -/

theorem input_of_quiet {s : State} (h : s.quiet = true) : s.input = {} := by
  simpa [State.quiet] using h

theorem clockTimer0_frame (s : State) (n : Nat) :
    clockTimer0 s n = { s with tmr0 := (clockTimer0 s n).tmr0, intcon := (clockTimer0 s n).intcon,
                               prescaler := (clockTimer0 s n).prescaler } := by
  cases h : prescalerOnWdt s with
  | true => rw [clockTimer0_onWdt h]; rfl
  | false => rw [clockTimer0_prescaled h]; rfl

/-- What Timer0 is given at a boundary changes Timer0's part alone (rule R203). -/
theorem runTimer0_frame (s : State) :
    runTimer0 s = { s with tmr0 := (runTimer0 s).tmr0, intcon := (runTimer0 s).intcon,
                           prescaler := (runTimer0 s).prescaler, t0Inhibit := (runTimer0 s).t0Inhibit, elapsed := 0 } := by
  rw [runTimer0_eq]
  split_ifs
  · rfl
  · conv_lhs => rw [clockTimer0_frame]
    rw [clockTimer0_t0Inhibit]
    rfl

/-- While the inhibit covers the elapsed cycles Timer0 is given none. -/
theorem runTimer0_inhibited {s : State} (h : s.elapsed ≤ s.t0Inhibit) : runTimer0 s = s.handOver := by
  rw [runTimer0_eq, Nat.sub_eq_zero_of_le h, clockTimer0_zero, ite_self]

/-- `t` is `s` after a boundary at which the environment did nothing (rules R74, R203). -/
structure QuietlyPassed (s t : State) : Prop where
  frame : t = { s with tmr0 := t.tmr0, intcon := t.intcon, prescaler := t.prescaler, t0Inhibit := t.t0Inhibit,
                       elapsed := 0, tick := s.tick + 1, inputs := s.inputs.tail }
  intcon : t.intcon = s.intcon ∨ t.intcon = s.intcon ||| 0x04#8
  inhibit : t.t0Inhibit = s.t0Inhibit - s.elapsed
  inhibited : s.elapsed ≤ s.t0Inhibit → t.tmr0 = s.tmr0 ∧ t.intcon = s.intcon ∧ t.prescaler = s.prescaler

theorem applyInput_nothing (s : State) :
    applyInput s {} = { runTimer0 s with tick := s.tick + 1, inputs := s.inputs.tail } := by
  simp [applyInput, raisedFlags, portBChange, Port.driven, driveFurther]

theorem applyInput_quiet {s : State} (h : s.quiet = true) : QuietlyPassed s (applyInput s s.input) := by
  rw [input_of_quiet h, applyInput_nothing]
  refine ⟨?_, runTimer0_maySetT0if s, runTimer0_t0Inhibit s, fun hin => ?_⟩
  · conv_lhs => rw [runTimer0_frame]
  · rw [runTimer0_inhibited hin]
    exact ⟨rfl, rfl, rfl⟩

/-! ## An awake core -/

/-- What an awake core does after the boundary's events, where the watchdog does not time out. -/
def awakeTurn (t : State) (inp : Input) : Turn :=
  match inp.reset with
  | some .powerOn => .rest (powerOnReset t)
  | some .external => .rest (externalReset t)
  | none => if interruptDue t && !interruptHeld t inp then .interrupt t else .run t

theorem turn_awake {s : State} (hawake : s.sleeping = false) (hwdt : wdtFires (applyInput s s.input) s.input = false) :
    turn s = awakeTurn (applyInput s s.input) s.input := by
  have ha : (applyInput s s.input).sleeping = false := (applyInput_sleeping ..).trans hawake
  unfold turn awakeTurn
  simp only [ha, hwdt]
  rfl

theorem wdtFires_of_no_timeout {s : State} {inp : Input} (h : inp.wdtTimeout = false) : wdtFires s inp = false := by
  simp [wdtFires, h]

/-- Settles O6: no interrupt is due at the quiet boundary, so the core runs. -/
theorem quietBoundaryOnlyRunsTimer0 : Obligations.QuietBoundaryOnlyRunsTimer0 := by
  intro s hquiet hawake hno
  obtain ⟨hframe, hintcon, -, hinhibited⟩ := applyInput_quiet hquiet
  have hdue : interruptDue (applyInput s s.input) = false := by
    have hgie : (applyInput s s.input).gie = s.gie := applyInput_intcon_high s _ (by decide)
    rcases hno with h | h <;> simp [interruptDue, hgie, h]
  have hinput := input_of_quiet hquiet
  have hreset : s.input.reset = none := by rw [hinput]
  have hwdt : wdtFires (applyInput s s.input) s.input = false := wdtFires_of_no_timeout (by rw [hinput])
  refine ⟨applyInput s s.input, ?_, hframe, hintcon, hinhibited⟩
  simp [turn_awake hawake hwdt, awakeTurn, hreset, hdue]

/-- Settles O49, by what the input says of a due interrupt. -/
theorem dueInterruptIsTakenOrHeld : Obligations.DueInterruptIsTakenOrHeld := by
  intro s hawake hreset htimeout hdue
  have hturn : turn s = if !interruptHeld (applyInput s s.input) s.input then .interrupt (applyInput s s.input)
      else .run (applyInput s s.input) := by
    simp [turn_awake hawake (wdtFires_of_no_timeout htimeout), awakeTurn, hreset, hdue]
  have hentry (hheld : interruptHeld (applyInput s s.input) s.input = false) :
      step s = enterInterrupt (applyInput s s.input) := by
    simp [step, hturn, hheld]
  have hrun (hheld : interruptHeld (applyInput s s.input) s.input = true) : turn s = .run (applyInput s s.input) := by
    simp [hturn, hheld]
  refine ⟨fun hold => hentry (by simp [interruptHeld, hold]), fun hold => hrun (by simp [interruptHeld, hold]), ?_⟩
  cases hheld : interruptHeld (applyInput s s.input) s.input with
  | false => exact .inl (hentry hheld)
  | true => exact .inr (hrun hheld)

/-- An interrupt is due when GIE and some source's enable bit and flag are 1 (rule R194). -/
theorem interruptDue_iff (t : State) : interruptDue t = true ↔ t.intcon.getLsbD 7 = true
    ∧ ((t.intcon.getLsbD 5 = true ∧ t.intcon.getLsbD 2 = true) ∨ (t.intcon.getLsbD 4 = true ∧ t.intcon.getLsbD 1 = true)
      ∨ (t.intcon.getLsbD 3 = true ∧ t.intcon.getLsbD 0 = true) ∨ (t.intcon.getLsbD 6 = true ∧ t.peripheral = true)) := by
  simp only [interruptDue, interruptRequest, Bool.and_eq_true, Bool.or_eq_true, or_assoc]
  rfl

/-- Settles O48: the two ways into an interrupt, from an awake core and with a watchdog wake-up, both ask Take(). -/
theorem interruptOnlyWhenEnabledAndPending : Obligations.InterruptOnlyWhenEnabledAndPending := by
  intro s t h
  rw [← interruptDue_iff]
  rcases turn_cases s with ⟨_, e⟩ | ⟨_, e⟩ | ⟨_, _, _, e⟩ | ⟨_, hawake, _, hdue, e⟩ | ⟨_, _, _, _, e⟩ | ⟨_, _, _, _, e⟩
    | ⟨_, _, _, _, e⟩ | ⟨_, _, _, e | ⟨hdue, e⟩⟩ <;> rw [e] at h <;> cases h
  · exact ⟨(applyInput_sleeping ..).trans hawake, (Bool.and_eq_true_iff.mp hdue).1⟩
  · exact ⟨rfl, hdue⟩

/-! ## A time-out before the watchdog's period -/

/-- The state with other inputs to come. -/
def State.setInputs (s : State) (l : List Input) : State := { s with inputs := l }

theorem clockTimer0_setInputs (s : State) (l : List Input) (n : Nat) :
    clockTimer0 (s.setInputs l) n = (clockTimer0 s n).setInputs l := by
  cases h : prescalerOnWdt s with
  | true => rw [clockTimer0_onWdt h, clockTimer0_onWdt (s := s.setInputs l) h]; rfl
  | false => rw [clockTimer0_prescaled h, clockTimer0_prescaled (s := s.setInputs l) h]; rfl

theorem runTimer0_setInputs (s : State) (l : List Input) : runTimer0 (s.setInputs l) = (runTimer0 s).setInputs l := by
  rw [runTimer0_eq, runTimer0_eq, apply_ite (State.setInputs · l), ← clockTimer0_setInputs]
  rfl

/-- A boundary's events do not depend on the inputs that come after. -/
theorem applyInput_setInputs (s : State) (l : List Input) (inp : Input) :
    applyInput (s.setInputs l) inp = (applyInput s inp).setInputs l.tail := by
  unfold applyInput
  rw [runTimer0_setInputs, clockTimer0_setInputs]
  rfl

/-- The input with or without a time-out of the watchdog. -/
def Input.withTimeout (inp : Input) (b : Bool) : Input := { inp with wdtTimeout := b }

/-- With an awake core and a watchdog that is disabled or was cleared lately, a time-out of the input has no effect. -/
theorem wdtFires_early {s : State} (hawake : s.sleeping = false)
    (h : s.device.wdtEnabled = false ∨ s.wdt < s.device.wdtMinPeriod) (inp inp' : Input) :
    wdtFires (applyInput s inp) inp' = false := by
  have hwdt : (applyInput s inp).wdt = s.wdt := by simp [applyInput, hawake]
  rcases h with h | h <;> simp [wdtFires, hwdt, h]

theorem turn_withTimeout {s : State} (hawake : s.sleeping = false)
    (h : s.device.wdtEnabled = false ∨ s.wdt < s.device.wdtMinPeriod) (inp : Input) (b : Bool) (rest : List Input) :
    turn (s.setInputs (inp.withTimeout b :: rest)) = awakeTurn ((applyInput s inp).setInputs rest) inp := by
  have happly : applyInput (s.setInputs (inp.withTimeout b :: rest)) (inp.withTimeout b)
      = (applyInput s inp).setInputs rest := applyInput_setInputs s _ _
  have hfires := wdtFires_early (s := s.setInputs (inp.withTimeout b :: rest)) hawake h (inp.withTimeout b) (inp.withTimeout b)
  refine (turn_awake (s := s.setInputs (inp.withTimeout b :: rest)) hawake hfires).trans ?_
  show awakeTurn (applyInput (s.setInputs (inp.withTimeout b :: rest)) (inp.withTimeout b)) (inp.withTimeout b) = _
  rw [happly]
  rfl

/-- Settles O53: the watchdog fires in neither step, and nothing else looks at the time-out. -/
theorem noWatchdogTimeoutBeforeItsPeriod : Obligations.NoWatchdogTimeoutBeforeItsPeriod := by
  intro s inp rest hawake h
  show step (s.setInputs (inp.withTimeout true :: rest)) = step (s.setInputs (inp.withTimeout false :: rest))
  rw [step, step, turn_withTimeout hawake h, turn_withTimeout hawake h]

/-! ## A sleeping core -/

/-- A source that wakes the core makes it run, with a watchdog time-out at the same boundary too (rule R210, log 30). -/
theorem turn_of_wakes {s : State} (hasleep : s.sleeping = true) (hreset : s.input.reset = none)
    (hwakes : interruptWakes s (applyInput s s.input) s.input = true) :
    turn s = .run { (if wdtFires (applyInput s s.input) s.input then watchdogWake (applyInput s s.input)
                     else applyInput s s.input) with sleeping := false } := by
  simp only [turn, hreset, applyInput_sleeping, hasleep, hwakes, if_true]

/-- With no reset, no time-out and no such source it sleeps on (rule R209). -/
theorem turn_of_nothing {s : State} (hasleep : s.sleeping = true) (hreset : s.input.reset = none)
    (hwdt : wdtFires (applyInput s s.input) s.input = false)
    (hwakes : interruptWakes s (applyInput s s.input) s.input = false) : turn s = .rest (applyInput s s.input) := by
  simp only [turn, hreset, applyInput_sleeping, hasleep, hwdt, hwakes, if_true, Bool.false_eq_true, if_false]

/-- A time-out of the watchdog makes it run or enter an interrupt (rules R205, R210). -/
theorem turn_of_watchdog {s : State} (hasleep : s.sleeping = true) (hreset : s.input.reset = none)
    (hwdt : wdtFires (applyInput s s.input) s.input = true) :
    turn s = .run (watchdogWake (applyInput s s.input)) ∨ turn s = .interrupt (watchdogWake (applyInput s s.input)) := by
  rcases turn_cases s with ⟨hr, _⟩ | ⟨hr, _⟩ | ⟨_, ha, _⟩ | ⟨_, ha, _⟩ | ⟨_, ha, _⟩ | ⟨_, _, hw, _⟩ | ⟨_, _, hw, _⟩
    | ⟨_, _, _, e⟩
  iterate 2 exact absurd (hreset.symm.trans hr) (by simp)
  iterate 3 exact absurd (hasleep.symm.trans ha) (by simp)
  iterate 2 exact absurd (hwdt.symm.trans hw) (by simp)
  exact e.imp_right And.right

/-- The sources that work without the oscillator, by the enable bits before the boundary (rule R210 (c)). -/
theorem interruptWakes_iff (s : State) : interruptWakes s (applyInput s s.input) s.input = true ↔ SourceWakes s := by
  have h4 := applyInput_intcon_high s s.input (k := 4) (by decide)
  have h3 := applyInput_intcon_high s s.input (k := 3) (by decide)
  have h6 := applyInput_intcon_high s s.input (k := 6) (by decide)
  simp only [interruptWakes, SourceWakes, bitOf, bitINTE, bitRBIE, bitPEIE, bitINTF, bitRBIF, h4, h3, h6, Bool.or_eq_true,
    Bool.and_eq_true, beq_iff_eq, or_assoc]

/-- Settles O54: nothing wakes the core at the quiet boundary. -/
theorem sleepingCoreKeepsItsState : Obligations.SleepingCoreKeepsItsState := by
  intro s hasleep hquiet
  obtain ⟨hframe, hintcon, hinhibit, hinhibited⟩ := applyInput_quiet hquiet
  have hinput := input_of_quiet hquiet
  have hwakes : interruptWakes s (applyInput s s.input) s.input = false := by
    simp [hinput, interruptWakes, raisedFlags, portBChange, bitOf]
  have hturn := turn_of_nothing hasleep (by rw [hinput]) (wdtFires_of_no_timeout (by rw [hinput])) hwakes
  exact ⟨applyInput s s.input, by rw [step, hturn], hframe, hintcon, hinhibit, hinhibited⟩

/-- Settles O55, by what wakes the core. -/
theorem wakeUpEvents : Obligations.WakeUpEvents := by
  intro s hasleep hreset
  rw [← interruptWakes_iff]
  refine ⟨fun hwdt => ?watchdog, fun hwdt hwakes => ?source, fun hwdt hno => ?nothing⟩
  case watchdog =>
    obtain ⟨hto, hpd, -⟩ := setToPd_bits (applyInput s s.input).status false false
    refine ⟨watchdogWake (applyInput s s.input), turn_of_watchdog hasleep hreset hwdt, rfl, hto, hpd,
      applyInput_pc .., applyInput_w .., fun hwakes => ?_⟩
    rw [turn_of_wakes hasleep hreset hwakes, if_pos hwdt]
    rfl
  case source =>
    refine ⟨{ applyInput s s.input with sleeping := false }, ?_, rfl, applyInput_pc .., applyInput_w ..,
      applyInput_status ..⟩
    rw [turn_of_wakes hasleep hreset hwakes, hwdt]
    rfl
  case nothing =>
    have hturn := turn_of_nothing hasleep hreset hwdt (Bool.eq_false_iff.mpr hno)
    exact ⟨applyInput s s.input, by rw [step, hturn], (applyInput_sleeping ..).trans hasleep, applyInput_pc ..,
      applyInput_w .., applyInput_status ..⟩

end Sys2Proof.Machine
end

section
/-! PROOFS. Resets (rules R50, R205, R220, R222). Every reset writes the same registers by the device's reset values; power-on
begins from unspecified bytes, the others from what the boundary's events left, which so keep the bits without a reset value. -/

namespace Sys2Proof.Machine

/-- Settles O51, by evaluation. -/
theorem resetStateValues : Obligations.ResetStateValues := by
  unfold Obligations.ResetStateValues
  decide

/-! ## Bytes after a reset -/

theorem afterReset_hasResetBits (r : ResetByte) (old : Byte) : HasResetBits r (afterReset r old) := fun k _ hk => by
  rw [afterReset_bit, if_pos hk]

theorem afterReset_keptBits (r : ResetByte) (old : Byte) : KeptBits r old (afterReset r old) := fun k _ hk => by
  rw [afterReset_bit, hk, if_neg Bool.false_ne_true]

theorem afterReset_allOnes (old : Byte) : afterReset allOnes old = 0xFF#8 := by
  simp [afterReset, mergeMask, allOnes]

/-- INTCON's bits but GIE are those of its reset byte (rule R222). -/
theorem intconAfterReset_bit (d : Device) (old : Byte) {k : Nat} (hk : k < 7) :
    (Device.intconAfterReset d old).getLsbD k = (afterReset d.intconReset old).getLsbD k := by
  have h7F : (0x7F#8 : Byte).getLsbD k = true := by interval_cases k <;> rfl
  rw [Device.intconAfterReset, BitVec.getLsbD_and, h7F, Bool.and_true]

theorem intconAfterReset_gie (d : Device) (old : Byte) : (Device.intconAfterReset d old).getLsbD 7 = false := by
  simp [Device.intconAfterReset]

theorem intconAfterReset_hasResetBits (d : Device) (old : Byte) :
    HasResetBits { d.intconReset with fixed := d.intconReset.fixed &&& 0x7F#8 } (Device.intconAfterReset d old) := by
  intro k hk hfixed
  rw [BitVec.getLsbD_and, Bool.and_eq_true] at hfixed
  obtain ⟨hfixed, h7F⟩ := hfixed
  have hlt : k < 7 := by
    by_contra hge
    obtain rfl : k = 7 := by omega
    exact absurd h7F (by decide)
  rw [intconAfterReset_bit d old hlt]
  exact afterReset_hasResetBits d.intconReset old k hk hfixed

theorem intconAfterReset_keptBits (d : Device) (old : Byte) :
    KeptBits { d.intconReset with fixed := d.intconReset.fixed ||| 0x80#8 } old (Device.intconAfterReset d old) := by
  intro k hk hfree
  rw [BitVec.getLsbD_or, Bool.or_eq_false_iff] at hfree
  obtain ⟨hfree, h80⟩ := hfree
  have hlt : k < 7 := by
    by_contra hge
    obtain rfl : k = 7 := by omega
    exact absurd h80 (by decide)
  rw [intconAfterReset_bit d old hlt]
  exact afterReset_keptBits d.intconReset old k hk hfree

/-- On a well-formed device the enable bits are 0, and GIE is on every device (rule R222). -/
theorem intconAfterReset_enables {d : Device} (h : Device.wf d = true) (old : Byte) :
    (Device.intconAfterReset d old).extractLsb' 3 5 = 0#5 := by
  simp only [Device.wf, Bool.and_eq_true, beq_iff_eq] at h
  obtain ⟨⟨⟨⟨⟨⟨⟨_, hfixed⟩, hvalue⟩, _⟩, _⟩, _⟩, _⟩, _⟩ := h
  have henable : ∀ k, 3 ≤ k → k < 7 → (Device.intconAfterReset d old).getLsbD k = false := by
    intro k h3 h7
    have h78 : (0x78#8 : Byte).getLsbD k = true := by interval_cases k <;> rfl
    have hf := congrArg (·.getLsbD k) hfixed
    have hv := congrArg (·.getLsbD k) hvalue
    simp only [BitVec.getLsbD_and, h78, Bool.and_true, BitVec.getLsbD_zero] at hf hv
    rw [intconAfterReset_bit d old h7, afterReset_bit, if_pos hf, hv]
  apply BitVec.eq_of_getLsbD_eq
  intro k hk
  rw [BitVec.getLsbD_extractLsb', BitVec.getLsbD_zero, decide_eq_true hk, Bool.true_and]
  by_cases h7 : 3 + k = 7
  · rw [h7]; exact intconAfterReset_gie d old
  · exact henable (3 + k) (by omega) (by omega)

/-! ## What every reset leaves -/

/-- `t` has the values that a reset gives on the device `d`. -/
structure WasReset (d : Device) (t : State) : Prop where
  pc : t.pc = d.resetVector
  pclath : t.pclath = 0x00#8
  banks : t.status.extractLsb' 5 3 = 0#3
  stackLive : t.stackLive = 0
  sleeping : t.sleeping = false
  wdt : t.wdt = 0
  prescaler : t.prescaler = 0
  intcon : ∃ old, t.intcon = Device.intconAfterReset d old
  optionReg : ∃ old, t.optionReg = afterReset d.optionReset old
  tmr0 : ∃ old, t.tmr0 = afterReset d.tmr0Reset old
  port : ∀ p, IsPort d p → ∃ q, t.port p = Port.afterReset (Device.portReset d p) q

theorem port_restart (s : State) (tOut pDown : Bool) {p : PortId} (hp : IsPort s.device p) :
    (restart s tOut pDown).port p = Port.afterReset (Device.portReset s.device p) (s.port p) := by
  cases p with
  | further n => exact (cellRead_resetFurther ..).trans (if_pos hp)
  | _ => rfl

theorem port_powerOnReset (s : State) {p : PortId} (hp : IsPort s.device p) :
    (powerOnReset s).port p = Port.powerOn (Device.portReset s.device p) (s.port p).pins := by
  cases p with
  | further n => exact (cellRead_resetFurther ..).trans (if_pos hp)
  | _ => rfl

/-- A restart clears the bank bits and leaves Z, DC and C. -/
theorem restart_status_bit (s : State) (tOut pDown : Bool) {k : Nat} (hto : k ≠ bitTO) (hpd : k ≠ bitPD) :
    (restart s tOut pDown).status.getLsbD k = (s.status.getLsbD k && (0x1F#8 : Byte).getLsbD k) := by
  rw [← BitVec.getLsbD_and]
  exact (bitOf_setBit_other _ _ _ _ hpd).trans (bitOf_setBit_other _ _ _ _ hto)

theorem restart_wasReset (s : State) (tOut pDown : Bool) : WasReset s.device (restart s tOut pDown) where
  pc := rfl
  pclath := rfl
  banks := by
    apply BitVec.eq_of_getLsbD_eq
    intro k hk
    rw [BitVec.getLsbD_extractLsb', restart_status_bit _ _ _ (by simp [bitTO]; omega) (by simp [bitPD]; omega)]
    interval_cases k <;> simp
  stackLive := rfl
  sleeping := rfl
  wdt := rfl
  prescaler := rfl
  intcon := ⟨_, rfl⟩
  optionReg := ⟨_, rfl⟩
  tmr0 := ⟨_, rfl⟩
  port _ hp := ⟨_, port_restart s tOut pDown hp⟩

theorem powerOnReset_wasReset (s : State) : WasReset s.device (powerOnReset s) where
  pc := rfl
  pclath := rfl
  banks := show powerOnStatus.extractLsb' 5 3 = 0#3 by decide
  stackLive := rfl
  sleeping := rfl
  wdt := rfl
  prescaler := rfl
  intcon := ⟨_, rfl⟩
  optionReg := ⟨_, rfl⟩
  tmr0 := ⟨_, rfl⟩
  port _ hp := ⟨_, port_powerOnReset s hp⟩

/-! ## What a reset other than power-on keeps -/

/-- `t` keeps of `s` what R50 does not give a value; INTCON's flag bits and TMR0 are as `u`, the boundary's events, left them. -/
structure KeptThroughReset (s u t : State) : Prop where
  w : t.w = s.w
  fsr : t.fsr = s.fsr
  mem : t.mem = s.mem
  flags : t.status.extractLsb' 0 3 = s.status.extractLsb' 0 3
  intcon : KeptBits { s.device.intconReset with fixed := s.device.intconReset.fixed ||| 0x80#8 } u.intcon t.intcon
  optionReg : KeptBits s.device.optionReset s.optionReg t.optionReg
  tmr0 : KeptBits s.device.tmr0Reset u.tmr0 t.tmr0
  port : ∀ p, IsPort s.device p → KeptBits (Device.portReset s.device p).latch (s.port p).latch (t.port p).latch
      ∧ KeptBits (Device.portReset s.device p).tris (s.port p).tris (t.port p).tris

theorem restart_kept (s : State) (tOut pDown : Bool) :
    KeptThroughReset s (applyInput s s.input) (restart (applyInput s s.input) tOut pDown) where
  w := applyInput_w ..
  fsr := applyInput_fsr ..
  mem := applyInput_mem ..
  flags := by
    apply BitVec.eq_of_getLsbD_eq
    intro k hk
    rw [BitVec.getLsbD_extractLsb', BitVec.getLsbD_extractLsb',
      restart_status_bit _ _ _ (by simp [bitTO]; omega) (by simp [bitPD]; omega), applyInput_status]
    interval_cases k <;> simp
  intcon := by
    rw [← applyInput_device s s.input]
    exact intconAfterReset_keptBits _ _
  optionReg := by
    rw [← applyInput_device s s.input, ← applyInput_optionReg s s.input]
    exact afterReset_keptBits _ _
  tmr0 := by
    rw [← applyInput_device s s.input]
    exact afterReset_keptBits _ _
  port p hp := by
    obtain ⟨hlatch, htris⟩ := applyInput_port s s.input p
    rw [← applyInput_device s s.input] at hp ⊢
    rw [port_restart _ _ _ hp, ← hlatch, ← htris]
    exact ⟨afterReset_keptBits _ _, afterReset_keptBits _ _⟩

/-! ## The cause -/

/-- TO and PD of `t` tell the cause of the reset due in `s` (rule R220). -/
structure TellsCause (s t : State) : Prop where
  powerOn : s.input.reset = some .powerOn → t.flagTO = true ∧ t.flagPD = true
  externalAwake : s.input.reset = some .external → s.sleeping = false → t.flagTO = s.flagTO ∧ t.flagPD = s.flagPD
  externalAsleep : s.input.reset = some .external → s.sleeping = true → t.flagTO = true ∧ t.flagPD = false
  watchdog : s.input.reset = none → t.flagTO = false ∧ t.flagPD = true

theorem restart_flags (s : State) (tOut pDown : Bool) :
    (restart s tOut pDown).flagTO = tOut ∧ (restart s tOut pDown).flagPD = pDown := by
  obtain ⟨hto, hpd, -⟩ := setToPd_bits (s.status &&& 0x1F#8) tOut pDown
  exact ⟨hto, hpd⟩

theorem step_of_rest {s t : State} (h : turn s = .rest t) : step s = .next t := by
  rw [step, h]

/-- The step where a reset is due: it ends in a reset state that tells the cause, and keeps what power-on alone does not. -/
def StepResets (s : State) : Prop :=
  ∃ t, step s = .next t ∧ WasReset s.device t ∧ TellsCause s t
    ∧ (s.input.reset ≠ some .powerOn → KeptThroughReset s (applyInput s s.input) t)

theorem stepResets_of_restart {s : State} {tOut pDown : Bool}
    (hturn : turn s = .rest (restart (applyInput s s.input) tOut pDown))
    (hcause : ∀ t : State, t.flagTO = tOut → t.flagPD = pDown → TellsCause s t) : StepResets s := by
  have hreset := restart_wasReset (applyInput s s.input) tOut pDown
  rw [applyInput_device] at hreset
  obtain ⟨hto, hpd⟩ := restart_flags (applyInput s s.input) tOut pDown
  exact ⟨_, step_of_rest hturn, hreset, hcause _ hto hpd, fun _ => restart_kept ..⟩

theorem stepResets_powerOn {s : State} (hr : s.input.reset = some .powerOn) : StepResets s := by
  have hturn : turn s = .rest (powerOnReset (applyInput s s.input)) := by simp [turn, hr]
  have hreset := powerOnReset_wasReset (applyInput s s.input)
  rw [applyInput_device] at hreset
  have hflags : bitOf powerOnStatus bitTO = true ∧ bitOf powerOnStatus bitPD = true := by decide
  exact ⟨_, step_of_rest hturn, hreset, ⟨fun _ => hflags, by simp [hr], by simp [hr], by simp [hr]⟩,
    fun hne => absurd hr hne⟩

theorem stepResets_external {s : State} (hr : s.input.reset = some .external) : StepResets s := by
  have hturn : turn s = .rest (externalReset (applyInput s s.input)) := by simp [turn, hr]
  rw [externalReset, applyInput_sleeping] at hturn
  cases hs : s.sleeping with
  | true =>
    rw [hs, if_pos rfl] at hturn
    exact stepResets_of_restart hturn fun t hto hpd =>
      ⟨by simp [hr], by simp [hs], fun _ _ => ⟨hto, hpd⟩, by simp [hr]⟩
  | false =>
    rw [hs, if_neg Bool.false_ne_true, State.flagTO, State.flagPD, applyInput_status] at hturn
    exact stepResets_of_restart hturn fun t hto hpd =>
      ⟨by simp [hr], fun _ _ => ⟨hto, hpd⟩, by simp [hs], by simp [hr]⟩

theorem stepResets_watchdog {s : State} (hr : s.input.reset = none) (hawake : s.sleeping = false)
    (hwdt : wdtFires (applyInput s s.input) s.input = true) : StepResets s := by
  have hturn : turn s = .rest (restart (applyInput s s.input) false true) := by
    simp [turn, hr, hawake, hwdt, watchdogReset]
  exact stepResets_of_restart hturn fun t hto hpd =>
    ⟨by simp [hr], by simp [hr], by simp [hr], fun _ => ⟨hto, hpd⟩⟩

theorem stepResets_of_due {s : State}
    (h : s.input.reset ≠ none ∨ (s.sleeping = false ∧ wdtFires (applyInput s s.input) s.input = true)) : StepResets s := by
  rcases hr : s.input.reset with _ | _ | _
  · obtain ⟨hawake, hwdt⟩ := h.resolve_left (by simp [hr])
    exact stepResets_watchdog hr hawake hwdt
  · exact stepResets_powerOn hr
  · exact stepResets_external hr

/-- Settles O52, by what every reset leaves, what tells the cause, and what is kept. -/
theorem resetsAndTheirCause : Obligations.ResetsAndTheirCause := by
  intro s hdue
  obtain ⟨t, hstep, hreset, hcause, hkept⟩ := stepResets_of_due hdue
  obtain ⟨old, hintcon⟩ := hreset.intcon
  obtain ⟨old', hoption⟩ := hreset.optionReg
  obtain ⟨old'', htmr0⟩ := hreset.tmr0
  refine ⟨t, hstep, hreset.pc, hreset.pclath, hreset.banks, ?gie, hreset.stackLive, hreset.sleeping, hreset.wdt,
    hreset.prescaler, fun hwf => ?enables, ?intcon, ?option, ?tmr0, fun p hp => ?port, fun hones => ?optionOnes,
    fun p hp hones => ?trisOnes, hcause.powerOn, hcause.externalAwake, hcause.externalAsleep, hcause.watchdog,
    fun hne => ?kept⟩
  case gie => rw [State.gie, hintcon]; exact intconAfterReset_gie ..
  case enables => rw [hintcon]; exact intconAfterReset_enables hwf old
  case intcon => rw [hintcon]; exact intconAfterReset_hasResetBits _ _
  case option => rw [hoption]; exact afterReset_hasResetBits _ _
  case tmr0 => rw [htmr0]; exact afterReset_hasResetBits _ _
  case port =>
    obtain ⟨q, hq⟩ := hreset.port p hp
    rw [hq]
    exact ⟨afterReset_hasResetBits _ _, afterReset_hasResetBits _ _⟩
  case optionOnes => rw [hoption, hones]; exact afterReset_allOnes old'
  case trisOnes =>
    obtain ⟨q, hq⟩ := hreset.port p hp
    rw [hq, hones]
    exact afterReset_allOnes q.tris
  case kept =>
    obtain ⟨hw, hfsr, hmem, hflags, hint, hopt, htmr, hport⟩ := hkept hne
    exact ⟨hw, hfsr, hmem, hflags, hint, hopt, htmr, hport⟩

end Sys2Proof.Machine
end
